-- ==== Sys2Proof/Word.lean ====
section
/-!
DEFINITION. The word types of the block (spec/00_scope.md R7, R8): bytes of 8 bits, addresses of 16 bits. All values are
unsigned; bit 0 is the least significant bit.
-/
namespace Sys2Proof

/-- A byte: a status entry, a snapshot entry, a sentinel, a colour channel (R8). -/
abbrev Byte := BitVec 8

/-- An address of the bus: 16 bits, of which `0xC000 .. 0xC0FF` reach the block (R7, R60). -/
abbrev Address := BitVec 16

end Sys2Proof
end

