-- ==== Sys2Proof/Config.lean ====
section
/-!
DEFINITION. The configuration of the block (spec/00_scope.md R6): what is fixed at construction and never changes after
it, and the free values, constants with no body that stand for what the spec leaves open at run time. The default
values of the parameters are in Machine/Reference.lean.
-/
namespace Sys2Proof

/-- The default of `CYCLE`, the type of a cycle count (R6): the natural numbers (decision D12). `CYCLE` itself is an argument
of the model, the type `C` of the operands, records, states and operations that hold or pass on a count; where it is not
written it is this one, and `exec`, `step` and `core` are the instance at this one (log 20). -/
abbrev Cycle : Type := Nat

/-- The names of the switches (R21: a name is used only to refer to an entry). The first 36 are the entries of
`REF_TABLE` (R160); `platform n` is a switch that a platform adds to the table. -/
inductive SwitchName where
  | store80
  | ramRd
  | ramWrt
  | intCxRom
  | altZp
  | slotC3Rom
  | column80
  | altCharSet
  | kbrdStrobe
  | bsrBank2
  | bsrReadRam
  | speaker
  | text
  | mixed
  | page2
  | hires
  | pb0
  | pb1
  | pb2
  | paddle0
  | paddle1
  | paddle2
  | paddle3
  | ptrig
  | bsrSel0
  | bsrSel1
  | bsrSel2
  | bsrSel3
  | bsrSel4
  | bsrSel5
  | bsrSel6
  | bsrSel7
  | drvSm0
  | drvSm1
  | drvSm2
  | drvSm3
  | platform (n : Nat)
  deriving DecidableEq, Repr

/-- Handler ids (R245); `platform n` is an id that a platform registers (R249: a disk driver, for example). -/
inductive HandlerId where
  | bankedRam
  | kbdStrobe
  | speaker
  | joystick
  | platform (n : Nat)
  deriving DecidableEq, Repr

/-- One hardware register group (R21): the five configuration fields and the name. An absent address is `none`. -/
structure SwitchEntry where
  name          : SwitchName
  offAddress    : Option Address
  onAddress     : Option Address
  statusAddress : Option Address
  writeOnly     : Bool
  handler       : Option HandlerId
  deriving DecidableEq, Repr

/-- The write-only policy (R136, R137). -/
inductive WriteOnlyPolicy where
  /-- A plain switch fires iff it is not write-only or the access is a write; handlers are always invoked (R136). -/
  | gate
  /-- The recorded alternative: the access kind must equal the `writeOnly` flag, for handlers of step 2 too (R137). -/
  | exact
  deriving DecidableEq, Repr

/-- A palette entry (R111). -/
structure Rgb where
  red   : Byte
  green : Byte
  blue  : Byte
  deriving DecidableEq, Repr

/-- The parameters of R6. The four permutation and palette tables are lists indexed from 0; their sizes are checked
with the other constraints at construction. -/
structure Config where
  table         : List SwitchEntry
  /-- The ids that peripheral drivers bind to a handler by registration (R401); `BANKEDRAM` needs no registration, the
  block binds it itself. Only whether an id stands in the list matters, not how often (log 31). -/
  handlers      : List HandlerId
  policy        : WriteOnlyPolicy
  sentSet       : Byte
  sentClear     : Byte
  flashPeriod   : Nat
  loresDblPerm  : List Nat
  dhgrPerm      : List Nat
  palLoresColor : List Rgb
  palHiresColor : List Rgb
  phosphor      : Rgb
  alpha         : Byte
  loneRunLen    : Nat
  whiteRunLead  : Nat
  whiteRunTail  : Nat
  deriving DecidableEq, Repr

/-- What a free value may depend on. A handler is handed the address and the cycle count (R241) and has its own state;
a peripheral can see the latches that steer it (R249). `serial` is the state's draw counter, so that every draw is fresh
whatever the rest. Which parts stand here is the model's choice (log 3). -/
structure Draw (C : Type := Cycle) where
  serial      : Nat
  address     : Address
  cycle       : C
  peripherals : List (HandlerId × Nat)
  latches     : List (SwitchName × Bool)
  banked      : Vector Bool 8
  deriving DecidableEq, Repr

/-- FREE VALUE (R34, 93 U1): the byte that a read of a peripheral-owned address returns. No body: nothing constrains
it. -/
opaque Config.freeByte {C : Type} : Draw C → Byte

/-- FREE VALUE (R243(b), 93 U3): the bit that an external handler leaves in a latch of its own. -/
opaque Config.freeBit {C : Type} : HandlerId → SwitchName → Draw C → Bool

/-- FREE VALUE (R243(a), 93 U3): a code of the state `P[h]` that an external handler leaves behind. -/
opaque Config.freePeripheral {C : Type} : HandlerId → Draw C → Nat

/-- FREE VALUE (R243): codes of the outbound events that an external handler emits in one call, in order. -/
opaque Config.freeOutbound {C : Type} : HandlerId → Draw C → List Nat

end Sys2Proof
end

