-- ==== Sys2Proof/Machine/Operands.lean ====
section
/-!
DEFINITION. Operand assembly (spec/30_encoding.md R93, R105 to R109): the BankedRAM fragment of an address, the fields of
a snapshot byte, the next bit of a hi-res column, the bit stream and the window of a double hi-res line.
-/
namespace Sys2Proof.Machine

/-- The byte at an index of a snapshot or a line. Every index that a decoder uses on a snapshot of an admitted length is
inside it (R62). -/
def byteAt (bytes : List Byte) (i : Nat) : Byte := bytes.getD i 0

/-- `bit(v, i)` as 0 or 1 (R7). -/
def bitNat (v : Byte) (i : Nat) : Nat := (v.getLsbD i).toNat

/-- The BankedRAM fragment: the low 4 bits of the triggering address (R93). -/
def bankFragment (a : Address) : BitVec 4 := a.extractLsb' 0 4

/-- `frag[3]`: 0 is bank 2, 1 is bank 1 (R223). -/
def bankOne (frag : BitVec 4) : Bool := frag.getLsbD 3

/-- `fn = frag[1:0]`: 0 read, 1 write, 2 off, 3 read/write (R223). `frag[2]` is ignored. -/
def bankFunction (frag : BitVec 4) : Nat := (frag.extractLsb' 0 2).toNat

/-- The index of the latch that a fragment sets: `4 * bank1 + fn` (R224). -/
def bankIndex (frag : BitVec 4) : Nat := 4 * (bankOne frag).toNat + bankFunction frag

/-- The derived vector `B` of a fragment: one-hot at its index (R224, R225). -/
def bankVector (frag : BitVec 4) : Vector Bool 8 := Vector.ofFn fun j => decide (j.val = bankIndex frag)

/-- `bank2-selected` of a fragment (R226). -/
def bankTwoSelected (frag : BitVec 4) : Bool := !bankOne frag

/-- `read-RAM-active` of a fragment (R226). -/
def readRamActive (frag : BitVec 4) : Bool := bankFunction frag == 0 || bankFunction frag == 3

/-- The colour nibble of the upper block of a lo-res cell: `v[3:0]` (R106). -/
def lowNibble (v : Byte) : Nat := (v.extractLsb' 0 4).toNat

/-- The colour nibble of the lower block of a lo-res cell: `v[7:4]` (R106). -/
def highNibble (v : Byte) : Nat := (v.extractLsb' 4 4).toNat

/-- The data bit of column `k` of a hi-res line: bit `k mod 7` of byte `k / 7` (R107, R326). -/
def hiresBit (line : List Byte) (k : Nat) : Bool := (byteAt line (k / 7)).getLsbD (k % 7)

/-- `H` of column `k`: bit 7 of the byte the column belongs to (R107, R326). -/
def hiresHigh (line : List Byte) (k : Nat) : Nat := bitNat (byteAt line (k / 7)) 7

/-- The number of columns of a hi-res line: 40 bytes of 7 data bits (R326). -/
def hiresColumns : Nat := 280

/-- The next bit of column `k`: the bit of column `k + 1` of the line, 0 at its end (R109(a), R329). -/
def hiresNextBit (line : List Byte) (k : Nat) : Bool :=
  decide (k + 1 < hiresColumns) && hiresBit line (k + 1)

/-- The number of bits of a double hi-res line: 80 bytes of 7 bits (R108). -/
def dhiresBits : Nat := 560

/-- Stream bit `s[t]` of a double hi-res line: bit `t mod 7` of byte `t / 7`, 0 beyond the line (R108, R352). -/
def streamBit (line : List Byte) (t : Nat) : Bool :=
  decide (t < dhiresBits) && (byteAt line (t / 7)).getLsbD (t % 7)

/-- `s[t]` shifted left by its position modulo 4 (R353). -/
def shiftedStreamBit (line : List Byte) (t : Nat) : Nat := (streamBit line t).toNat <<< (t % 4)

/-- The window of pixel `x`: the current bit and three bits of lookahead (R109(b), R353). -/
def dhiresWindow (line : List Byte) (x : Nat) : Nat :=
  shiftedStreamBit line x + shiftedStreamBit line (x + 1) + shiftedStreamBit line (x + 2)
    + shiftedStreamBit line (x + 3)

end Sys2Proof.Machine
end

