-- ==== Sys2Proof/Machine/Reference.lean ====
section
/-!
DEFINITION. The default configuration of this hardware (spec/00_scope.md R6, last column): the reference switch table
(41_switch_table.md R160) and the default parameters. Every numeric address is general knowledge by the spec's own mark
(93 Part B), the choice of each default is the spec's decision (D3, D5, D6, D15 to D21): logs 9 to 17.
-/
namespace Sys2Proof.Machine

/-- The eight write-only mode switches (R161 to R168). -/
def writeOnlyEntries : List SwitchEntry :=
  [ ⟨.store80, some 0xC000, some 0xC001, some 0xC018, true, none⟩,
    ⟨.ramRd, some 0xC002, some 0xC003, some 0xC013, true, none⟩,
    ⟨.ramWrt, some 0xC004, some 0xC005, some 0xC014, true, none⟩,
    ⟨.intCxRom, some 0xC006, some 0xC007, some 0xC015, true, none⟩,
    ⟨.altZp, some 0xC008, some 0xC009, some 0xC016, true, none⟩,
    ⟨.slotC3Rom, some 0xC00A, some 0xC00B, some 0xC017, true, none⟩,
    ⟨.column80, some 0xC00C, some 0xC00D, some 0xC01F, true, none⟩,
    ⟨.altCharSet, some 0xC00E, some 0xC00F, some 0xC01E, true, none⟩ ]

/-- Keyboard strobe, the two bank status switches, speaker (R169 to R172). -/
def strobeBankSpeakerEntries : List SwitchEntry :=
  [ ⟨.kbrdStrobe, none, none, some 0xC010, false, some .kbdStrobe⟩,
    ⟨.bsrBank2, none, none, some 0xC011, false, none⟩,
    ⟨.bsrReadRam, none, none, some 0xC012, false, none⟩,
    ⟨.speaker, some 0xC030, some 0xC031, none, false, some .speaker⟩ ]

/-- The four display switches (R173 to R176). -/
def displayEntries : List SwitchEntry :=
  [ ⟨.text, some 0xC050, some 0xC051, some 0xC01A, false, none⟩,
    ⟨.mixed, some 0xC052, some 0xC053, some 0xC01B, false, none⟩,
    ⟨.page2, some 0xC054, some 0xC055, some 0xC01C, false, none⟩,
    ⟨.hires, some 0xC056, some 0xC057, some 0xC01D, false, none⟩ ]

/-- Push buttons, paddles, paddle trigger (R177 to R184). -/
def joystickEntries : List SwitchEntry :=
  [ ⟨.pb0, none, none, some 0xC061, false, some .joystick⟩,
    ⟨.pb1, none, none, some 0xC062, false, some .joystick⟩,
    ⟨.pb2, none, none, some 0xC063, false, some .joystick⟩,
    ⟨.paddle0, none, none, some 0xC064, false, some .joystick⟩,
    ⟨.paddle1, none, none, some 0xC065, false, some .joystick⟩,
    ⟨.paddle2, none, none, some 0xC066, false, some .joystick⟩,
    ⟨.paddle3, none, none, some 0xC067, false, some .joystick⟩,
    ⟨.ptrig, none, none, some 0xC070, false, some .joystick⟩ ]

/-- The eight BankedRAM selectors (R185 to R192). -/
def bankSelectEntries : List SwitchEntry :=
  [ ⟨.bsrSel0, some 0xC080, some 0xC081, none, false, some .bankedRam⟩,
    ⟨.bsrSel1, some 0xC082, some 0xC083, none, false, some .bankedRam⟩,
    ⟨.bsrSel2, some 0xC084, some 0xC085, none, false, some .bankedRam⟩,
    ⟨.bsrSel3, some 0xC086, some 0xC087, none, false, some .bankedRam⟩,
    ⟨.bsrSel4, some 0xC088, some 0xC089, none, false, some .bankedRam⟩,
    ⟨.bsrSel5, some 0xC08A, some 0xC08B, none, false, some .bankedRam⟩,
    ⟨.bsrSel6, some 0xC08C, some 0xC08D, none, false, some .bankedRam⟩,
    ⟨.bsrSel7, some 0xC08E, some 0xC08F, none, false, some .bankedRam⟩ ]

/-- The four disk phases (R193 to R196). -/
def diskPhaseEntries : List SwitchEntry :=
  [ ⟨.drvSm0, some 0xC0E0, some 0xC0E1, none, false, none⟩,
    ⟨.drvSm1, some 0xC0E2, some 0xC0E3, none, false, none⟩,
    ⟨.drvSm2, some 0xC0E4, some 0xC0E5, none, false, none⟩,
    ⟨.drvSm3, some 0xC0E6, some 0xC0E7, none, false, none⟩ ]

/-- `REF_TABLE` (R160): 36 entries, in the table's order. -/
def refTable : List SwitchEntry :=
  writeOnlyEntries ++ strobeBankSpeakerEntries ++ displayEntries ++ joystickEntries ++ bankSelectEntries
    ++ diskPhaseEntries

/-- The default of both 16-entry permutations: rotate the four bits left by one (R313, R354). -/
def rotateLeftTable : List Nat := [0, 2, 4, 6, 8, 10, 12, 14, 1, 3, 5, 7, 9, 11, 13, 15]

/-- `PAL_LORES_COLOR` (R271). -/
def refPalLoresColor : List Rgb :=
  [ ⟨0, 0, 0⟩,
    ⟨147, 11, 124⟩,
    ⟨31, 53, 211⟩,
    ⟨187, 54, 255⟩,
    ⟨0, 118, 12⟩,
    ⟨126, 126, 126⟩,
    ⟨7, 168, 224⟩,
    ⟨157, 172, 255⟩,
    ⟨98, 76, 0⟩,
    ⟨249, 86, 29⟩,
    ⟨126, 126, 126⟩,
    ⟨255, 129, 236⟩,
    ⟨67, 200, 0⟩,
    ⟨220, 205, 22⟩,
    ⟨93, 247, 132⟩,
    ⟨255, 255, 255⟩ ]

/-- `PAL_HIRES_COLOR` (R272), index `4 * H + c`. -/
def refPalHiresColor : List Rgb :=
  [ ⟨0, 0, 0⟩,
    ⟨67, 200, 0⟩,
    ⟨187, 54, 255⟩,
    ⟨255, 255, 255⟩,
    ⟨0, 0, 0⟩,
    ⟨249, 86, 29⟩,
    ⟨7, 168, 224⟩,
    ⟨255, 255, 255⟩ ]

/-- The configuration of this hardware: every parameter of R6 at its default. -/
def refConfig : Config where
  table         := refTable
  handlers      := [.kbdStrobe, .speaker, .joystick]
  policy        := .gate
  sentSet       := 0x8D
  sentClear     := 0x0D
  flashPeriod   := 24
  loresDblPerm  := rotateLeftTable
  dhgrPerm      := rotateLeftTable
  palLoresColor := refPalLoresColor
  palHiresColor := refPalHiresColor
  phosphor      := ⟨0, 255, 0⟩
  alpha         := 255
  loneRunLen    := 4
  whiteRunLead  := 1
  whiteRunTail  := 3

end Sys2Proof.Machine
end

