-- ==== Sys2Proof/Syntax.lean ====
section
/-!
DEFINITION. The operations of the block (spec/00_scope.md R3): the lines of a trace (spec/30_encoding.md R120), which are
what the agents present, and `Instr`, one constructor for each row of spec/opcode_table.json, which is what a line is
decoded to.
-/
namespace Sys2Proof

/-- The access kind (R90): `rd` is 0, `wr` is 1. -/
inductive Kind where
  | rd
  | wr
  deriving DecidableEq, Repr

/-- What a bus access carries beside its address (R90): the kind, the data byte of a write, the cycle count. -/
inductive BusAccess (C : Type := Cycle) where
  | rd (cycle : C)
  | wr (data : Byte) (cycle : C)
  deriving DecidableEq, Repr

/-- The access kind of an access. -/
def BusAccess.kind {C : Type} : BusAccess C → Kind
  | .rd _ => .rd
  | .wr _ _ => .wr

/-- The cycle count of an access. -/
def BusAccess.cycle {C : Type} : BusAccess C → C
  | .rd c => c
  | .wr _ c => c

/-- Which of a switch's three addresses an access hits (00_scope.md glossary, R91). -/
inductive Role where
  | off
  | on
  | status
  deriving DecidableEq, Repr

/-- The three decoders as the caller sees them (R100, R101; 90 C9). -/
inductive DecoderKind where
  | text
  | lores
  | hires
  deriving DecidableEq, Repr

/-- The `flash` operand of `DEC.TEXT` (R120, R290): a written 0 or 1, or the current value of `FLASHPHASE` (R36; the
programs of 95_test_vectors.md write it by that name). Log 18. -/
inductive FlashArg where
  | value (b : Bool)
  | flashPhase
  deriving DecidableEq, Repr

/-- A decoder with the parameters of one call, without its snapshot (R103, R120). -/
inductive DecoderCall where
  | text (alt : Bool) (flash : FlashArg) (mixed : Bool) (color : Bool)
  | lores (color : Bool)
  | hires (color : Bool)
  deriving DecidableEq, Repr

/-- The decoder of a call. -/
def DecoderCall.decoder : DecoderCall → DecoderKind
  | .text _ _ _ _ => .text
  | .lores _ => .lores
  | .hires _ => .hires

/-- One line of a trace (R120): one atomic step. -/
inductive TraceLine (C : Type := Cycle) where
  /-- `RD $a @cyc` or `WR $a ,#$dd @cyc`. -/
  | bus (address : Address) (access : BusAccess C)
  /-- `DEC.TEXT`, `DEC.LORES`, `DEC.HIRES` on a snapshot. -/
  | dec (call : DecoderCall) (snapshot : List Byte)
  | reset
  | tick
  deriving DecidableEq, Repr

/-- The pseudo-operations of the trace notation (R121). -/
inductive PseudoOp where
  | set (name : SwitchName)
  | clr (name : SwitchName)
  | tst (name : SwitchName)
  | rset (name : SwitchName)
  | rclr (name : SwitchName)
  deriving DecidableEq, Repr

/-- The operations, one constructor for each row of spec/opcode_table.json, in the table's order. A bus row carries the
access; its address is the row's. -/
inductive Instr where
  | store80Off (access : BusAccess)
  | store80On (access : BusAccess)
  | ramRdOff (access : BusAccess)
  | ramRdOn (access : BusAccess)
  | ramWrtOff (access : BusAccess)
  | ramWrtOn (access : BusAccess)
  | intCxRomOff (access : BusAccess)
  | intCxRomOn (access : BusAccess)
  | altZpOff (access : BusAccess)
  | altZpOn (access : BusAccess)
  | slotC3RomOff (access : BusAccess)
  | slotC3RomOn (access : BusAccess)
  | column80Off (access : BusAccess)
  | column80On (access : BusAccess)
  | altCharSetOff (access : BusAccess)
  | altCharSetOn (access : BusAccess)
  | kbrdStrobeStatus (access : BusAccess)
  | bsrBank2Status (access : BusAccess)
  | bsrReadRamStatus (access : BusAccess)
  | ramRdStatus (access : BusAccess)
  | ramWrtStatus (access : BusAccess)
  | intCxRomStatus (access : BusAccess)
  | altZpStatus (access : BusAccess)
  | slotC3RomStatus (access : BusAccess)
  | store80Status (access : BusAccess)
  | textStatus (access : BusAccess)
  | mixedStatus (access : BusAccess)
  | page2Status (access : BusAccess)
  | hiresStatus (access : BusAccess)
  | altCharSetStatus (access : BusAccess)
  | column80Status (access : BusAccess)
  | speakerOff (access : BusAccess)
  | speakerOn (access : BusAccess)
  | textOff (access : BusAccess)
  | textOn (access : BusAccess)
  | mixedOff (access : BusAccess)
  | mixedOn (access : BusAccess)
  | page2Off (access : BusAccess)
  | page2On (access : BusAccess)
  | hiresOff (access : BusAccess)
  | hiresOn (access : BusAccess)
  | pb0Status (access : BusAccess)
  | pb1Status (access : BusAccess)
  | pb2Status (access : BusAccess)
  | paddle0Status (access : BusAccess)
  | paddle1Status (access : BusAccess)
  | paddle2Status (access : BusAccess)
  | paddle3Status (access : BusAccess)
  | ptrigStatus (access : BusAccess)
  | bsrSel0Off (access : BusAccess)
  | bsrSel0On (access : BusAccess)
  | bsrSel1Off (access : BusAccess)
  | bsrSel1On (access : BusAccess)
  | bsrSel2Off (access : BusAccess)
  | bsrSel2On (access : BusAccess)
  | bsrSel3Off (access : BusAccess)
  | bsrSel3On (access : BusAccess)
  | bsrSel4Off (access : BusAccess)
  | bsrSel4On (access : BusAccess)
  | bsrSel5Off (access : BusAccess)
  | bsrSel5On (access : BusAccess)
  | bsrSel6Off (access : BusAccess)
  | bsrSel6On (access : BusAccess)
  | bsrSel7Off (access : BusAccess)
  | bsrSel7On (access : BusAccess)
  | drvSm0Off (access : BusAccess)
  | drvSm0On (access : BusAccess)
  | drvSm1Off (access : BusAccess)
  | drvSm1On (access : BusAccess)
  | drvSm2Off (access : BusAccess)
  | drvSm2On (access : BusAccess)
  | drvSm3Off (access : BusAccess)
  | drvSm3On (access : BusAccess)
  | unmapped (address : Address) (access : BusAccess)
  | decText960 (snapshot : List Byte) (alt : Bool) (flash : FlashArg) (mixed : Bool) (color : Bool)
  | decText1920 (snapshot : List Byte) (alt : Bool) (flash : FlashArg) (mixed : Bool) (color : Bool)
  | decLores800 (snapshot : List Byte) (color : Bool)
  | decLores960 (snapshot : List Byte) (color : Bool)
  | decLores1600 (snapshot : List Byte) (color : Bool)
  | decLores1920 (snapshot : List Byte) (color : Bool)
  | decHires6400 (snapshot : List Byte) (color : Bool)
  | decHires7680 (snapshot : List Byte) (color : Bool)
  | decHires12800 (snapshot : List Byte) (color : Bool)
  | decHires15360 (snapshot : List Byte) (color : Bool)
  | decEmpty (call : DecoderCall)
  | decBadLen (call : DecoderCall) (snapshot : List Byte)
  | reset
  | tick
  deriving DecidableEq, Repr

end Sys2Proof
end

