-- ==== Sys2Proof/Machine/SwitchTable.lean ====
section
/-!
DEFINITION. The address decoder over a switch table (spec/40_dispatch.md R131, 10_state.md R33): no state is read or
written here.
-/
namespace Sys2Proof.Machine

/-- The entry has `a` as its address in the given role (R91). An absent address matches nothing (R153(7)). -/
def answersAt (a : Address) : Role → SwitchEntry → Bool
  | .off, e => e.offAddress == some a
  | .on, e => e.onAddress == some a
  | .status, e => e.statusAddress == some a

/-- The first entry that answers at `a` in the given role. -/
def findRole (table : List SwitchEntry) (a : Address) (role : Role) : Option (SwitchEntry × Role) :=
  (table.find? (answersAt a role)).map fun e => (e, role)

/-- `Lookup(address)` (R131): off before on before status, in the order of the source's steps. -/
def lookup (table : List SwitchEntry) (a : Address) : Option (SwitchEntry × Role) :=
  match findRole table a .off with
  | some hit => some hit
  | none =>
    match findRole table a .on with
    | some hit => some hit
    | none => findRole table a .status

/-- The entry that carries a name, when the table has one. -/
def entryNamed (table : List SwitchEntry) (n : SwitchName) : Option SwitchEntry :=
  table.find? fun e => e.name == n

/-- A core-owned byte (R33): the status address of a switch that has no handler. -/
def coreOwned (table : List SwitchEntry) (a : Address) : Bool :=
  table.any fun e => e.handler.isNone && e.statusAddress == some a

/-- Every address of an entry that is present (R413). -/
def entryAddresses (e : SwitchEntry) : List Address :=
  e.offAddress.toList ++ e.onAddress.toList ++ e.statusAddress.toList

/-- The entries a handler is registered on: its own latches (R243(b)). -/
def ownEntries (table : List SwitchEntry) (h : HandlerId) : List SwitchEntry :=
  table.filter fun e => e.handler == some h

end Sys2Proof.Machine
end

