-- ==== Sys2Proof/WellFormed.lean ====
section
/-!
DEFINITION. The well-formed operations: what the opcode table's rows ask of an operand. A bus row takes any access; the
UNMAPPED row takes an address that no entry of the table answers (spec/30_encoding.md R97); a decode row takes a snapshot
of its length (R100); the BADLEN row takes a positive length that the decoder's rows do not list (R102).
-/
namespace Sys2Proof

/-- The snapshot lengths that a decoder admits (spec/30_encoding.md R100). -/
def DecoderKind.lengths : DecoderKind → List Nat
  | .text => [960, 1920]
  | .lores => [800, 960, 1600, 1920]
  | .hires => [6400, 7680, 12800, 15360]

/-- The operands of an operation are ones that its row of the opcode table admits. -/
def Instr.wellFormed : Instr → Bool
  | .unmapped a _ => (Machine.lookup Machine.refTable a).isNone
  | .decText960 snap _ _ _ _ => snap.length == 960
  | .decText1920 snap _ _ _ _ => snap.length == 1920
  | .decLores800 snap _ => snap.length == 800
  | .decLores960 snap _ => snap.length == 960
  | .decLores1600 snap _ => snap.length == 1600
  | .decLores1920 snap _ => snap.length == 1920
  | .decHires6400 snap _ => snap.length == 6400
  | .decHires7680 snap _ => snap.length == 7680
  | .decHires12800 snap _ => snap.length == 12800
  | .decHires15360 snap _ => snap.length == 15360
  | .decBadLen call snap => !snap.isEmpty && !call.decoder.lengths.contains snap.length
  | .store80Off _ | .store80On _ | .ramRdOff _ | .ramRdOn _ | .ramWrtOff _ | .ramWrtOn _ | .intCxRomOff _
  | .intCxRomOn _ | .altZpOff _ | .altZpOn _ | .slotC3RomOff _ | .slotC3RomOn _ | .column80Off _ | .column80On _
  | .altCharSetOff _ | .altCharSetOn _ | .kbrdStrobeStatus _ | .bsrBank2Status _ | .bsrReadRamStatus _
  | .ramRdStatus _ | .ramWrtStatus _ | .intCxRomStatus _ | .altZpStatus _ | .slotC3RomStatus _ | .store80Status _
  | .textStatus _ | .mixedStatus _ | .page2Status _ | .hiresStatus _ | .altCharSetStatus _ | .column80Status _
  | .speakerOff _ | .speakerOn _ | .textOff _ | .textOn _ | .mixedOff _ | .mixedOn _ | .page2Off _ | .page2On _
  | .hiresOff _ | .hiresOn _ | .pb0Status _ | .pb1Status _ | .pb2Status _ | .paddle0Status _ | .paddle1Status _
  | .paddle2Status _ | .paddle3Status _ | .ptrigStatus _ | .bsrSel0Off _ | .bsrSel0On _ | .bsrSel1Off _
  | .bsrSel1On _ | .bsrSel2Off _ | .bsrSel2On _ | .bsrSel3Off _ | .bsrSel3On _ | .bsrSel4Off _ | .bsrSel4On _
  | .bsrSel5Off _ | .bsrSel5On _ | .bsrSel6Off _ | .bsrSel6On _ | .bsrSel7Off _ | .bsrSel7On _ | .drvSm0Off _
  | .drvSm0On _ | .drvSm1Off _ | .drvSm1On _ | .drvSm2Off _ | .drvSm2On _ | .drvSm3Off _ | .drvSm3On _ => true
  | .decEmpty _ | .reset | .tick => true

end Sys2Proof
end

