-- ==== Sys2Proof/Decode.lean ====
section
/-!
DEFINITION. The decoder and, after it, the encoder (spec/30_encoding.md). A bus line is decoded by whole-address match
against the rows of the opcode table (R91), a decode request by its decoder and the length of its snapshot (R100). The
decoder is total: every line is some row's operation. A bus operation written as a number (R122) is read by
`TraceLine.ofNumber`, which rejects by name a number that is none.
-/
namespace Sys2Proof

/-- A row of format `IOADDR` of the opcode table: the row answers at `a` when `a` and `mask` give `pattern` (R91). -/
structure IoRow where
  mask    : Address
  pattern : Address
  build   : BusAccess → Instr

/-- Rows `0xC000 .. 0xC00F`: the write-only switches. -/
def writeOnlyRows : List IoRow :=
  [ ⟨0xFFFF, 0xC000, .store80Off⟩, ⟨0xFFFF, 0xC001, .store80On⟩, ⟨0xFFFF, 0xC002, .ramRdOff⟩,
    ⟨0xFFFF, 0xC003, .ramRdOn⟩, ⟨0xFFFF, 0xC004, .ramWrtOff⟩, ⟨0xFFFF, 0xC005, .ramWrtOn⟩,
    ⟨0xFFFF, 0xC006, .intCxRomOff⟩, ⟨0xFFFF, 0xC007, .intCxRomOn⟩, ⟨0xFFFF, 0xC008, .altZpOff⟩,
    ⟨0xFFFF, 0xC009, .altZpOn⟩, ⟨0xFFFF, 0xC00A, .slotC3RomOff⟩, ⟨0xFFFF, 0xC00B, .slotC3RomOn⟩,
    ⟨0xFFFF, 0xC00C, .column80Off⟩, ⟨0xFFFF, 0xC00D, .column80On⟩, ⟨0xFFFF, 0xC00E, .altCharSetOff⟩,
    ⟨0xFFFF, 0xC00F, .altCharSetOn⟩ ]

/-- Rows `0xC010 .. 0xC018`, `0xC01A .. 0xC01F`: strobe and status addresses. -/
def statusRows : List IoRow :=
  [ ⟨0xFFFF, 0xC010, .kbrdStrobeStatus⟩, ⟨0xFFFF, 0xC011, .bsrBank2Status⟩, ⟨0xFFFF, 0xC012, .bsrReadRamStatus⟩,
    ⟨0xFFFF, 0xC013, .ramRdStatus⟩, ⟨0xFFFF, 0xC014, .ramWrtStatus⟩, ⟨0xFFFF, 0xC015, .intCxRomStatus⟩,
    ⟨0xFFFF, 0xC016, .altZpStatus⟩, ⟨0xFFFF, 0xC017, .slotC3RomStatus⟩, ⟨0xFFFF, 0xC018, .store80Status⟩,
    ⟨0xFFFF, 0xC01A, .textStatus⟩, ⟨0xFFFF, 0xC01B, .mixedStatus⟩, ⟨0xFFFF, 0xC01C, .page2Status⟩,
    ⟨0xFFFF, 0xC01D, .hiresStatus⟩, ⟨0xFFFF, 0xC01E, .altCharSetStatus⟩, ⟨0xFFFF, 0xC01F, .column80Status⟩ ]

/-- Rows `0xC030`, `0xC031`, `0xC050 .. 0xC057`: speaker and display switches. -/
def speakerDisplayRows : List IoRow :=
  [ ⟨0xFFFF, 0xC030, .speakerOff⟩, ⟨0xFFFF, 0xC031, .speakerOn⟩, ⟨0xFFFF, 0xC050, .textOff⟩,
    ⟨0xFFFF, 0xC051, .textOn⟩, ⟨0xFFFF, 0xC052, .mixedOff⟩, ⟨0xFFFF, 0xC053, .mixedOn⟩, ⟨0xFFFF, 0xC054, .page2Off⟩,
    ⟨0xFFFF, 0xC055, .page2On⟩, ⟨0xFFFF, 0xC056, .hiresOff⟩, ⟨0xFFFF, 0xC057, .hiresOn⟩ ]

/-- Rows `0xC061 .. 0xC067`, `0xC070`: push buttons, paddles, trigger. -/
def joystickRows : List IoRow :=
  [ ⟨0xFFFF, 0xC061, .pb0Status⟩, ⟨0xFFFF, 0xC062, .pb1Status⟩, ⟨0xFFFF, 0xC063, .pb2Status⟩,
    ⟨0xFFFF, 0xC064, .paddle0Status⟩, ⟨0xFFFF, 0xC065, .paddle1Status⟩, ⟨0xFFFF, 0xC066, .paddle2Status⟩,
    ⟨0xFFFF, 0xC067, .paddle3Status⟩, ⟨0xFFFF, 0xC070, .ptrigStatus⟩ ]

/-- Rows `0xC080 .. 0xC08F`: the BankedRAM selectors. -/
def bankRows : List IoRow :=
  [ ⟨0xFFFF, 0xC080, .bsrSel0Off⟩, ⟨0xFFFF, 0xC081, .bsrSel0On⟩, ⟨0xFFFF, 0xC082, .bsrSel1Off⟩,
    ⟨0xFFFF, 0xC083, .bsrSel1On⟩, ⟨0xFFFF, 0xC084, .bsrSel2Off⟩, ⟨0xFFFF, 0xC085, .bsrSel2On⟩,
    ⟨0xFFFF, 0xC086, .bsrSel3Off⟩, ⟨0xFFFF, 0xC087, .bsrSel3On⟩, ⟨0xFFFF, 0xC088, .bsrSel4Off⟩,
    ⟨0xFFFF, 0xC089, .bsrSel4On⟩, ⟨0xFFFF, 0xC08A, .bsrSel5Off⟩, ⟨0xFFFF, 0xC08B, .bsrSel5On⟩,
    ⟨0xFFFF, 0xC08C, .bsrSel6Off⟩, ⟨0xFFFF, 0xC08D, .bsrSel6On⟩, ⟨0xFFFF, 0xC08E, .bsrSel7Off⟩,
    ⟨0xFFFF, 0xC08F, .bsrSel7On⟩ ]

/-- Rows `0xC0E0 .. 0xC0E7`: the disk phases. -/
def diskRows : List IoRow :=
  [ ⟨0xFFFF, 0xC0E0, .drvSm0Off⟩, ⟨0xFFFF, 0xC0E1, .drvSm0On⟩, ⟨0xFFFF, 0xC0E2, .drvSm1Off⟩,
    ⟨0xFFFF, 0xC0E3, .drvSm1On⟩, ⟨0xFFFF, 0xC0E4, .drvSm2Off⟩, ⟨0xFFFF, 0xC0E5, .drvSm2On⟩,
    ⟨0xFFFF, 0xC0E6, .drvSm3Off⟩, ⟨0xFFFF, 0xC0E7, .drvSm3On⟩ ]

/-- The 73 address rows of the opcode table, in its order. -/
def ioRows : List IoRow :=
  writeOnlyRows ++ statusRows ++ speakerDisplayRows ++ joystickRows ++ bankRows ++ diskRows

/-- The row answers at the address. -/
def IoRow.answers (r : IoRow) (a : Address) : Bool :=
  a &&& r.mask == r.pattern

/-- Decode of an `IOADDR` operation (R91): the row that answers, or `UNMAPPED` (R97). -/
def decodeBus (a : Address) (acc : BusAccess) : Instr :=
  match ioRows.find? (fun r => r.answers a) with
  | some r => r.build acc
  | none => .unmapped a acc

/-- Decode of a `SNAPLEN` request (R100, R102): the decoder is the caller's choice, the length selects the row. -/
def decodeSnapshot (call : DecoderCall) (snap : List Byte) : Instr :=
  if snap.length = 0 then .decEmpty call
  else match call with
    | .text alt flash mixed color =>
      if snap.length = 960 then .decText960 snap alt flash mixed color
      else if snap.length = 1920 then .decText1920 snap alt flash mixed color
      else .decBadLen (.text alt flash mixed color) snap
    | .lores color =>
      if snap.length = 800 then .decLores800 snap color
      else if snap.length = 960 then .decLores960 snap color
      else if snap.length = 1600 then .decLores1600 snap color
      else if snap.length = 1920 then .decLores1920 snap color
      else .decBadLen (.lores color) snap
    | .hires color =>
      if snap.length = 6400 then .decHires6400 snap color
      else if snap.length = 7680 then .decHires7680 snap color
      else if snap.length = 12800 then .decHires12800 snap color
      else if snap.length = 15360 then .decHires15360 snap color
      else .decBadLen (.hires color) snap

/-- The operation that a trace line presents. -/
def decode : TraceLine → Instr
  | .bus a acc => decodeBus a acc
  | .dec call snap => decodeSnapshot call snap
  | .reset => .reset
  | .tick => .tick

/-- Why a number is rejected as a bus operation. -/
inductive DecodeReject where
  /-- The number has a bit above bit 16: R122 gives a bus operation 17 bits. -/
  | notABusNumber (n : Nat)
  deriving DecidableEq, Repr

/-- The value of the `kind` field: `Rd` is 0, `Wr` is 1 (R90). -/
def Kind.number : Kind → Nat
  | .rd => 0
  | .wr => 1

/-- The number of a bus operation (R122): `kind * 0x10000 + address`. -/
def busNumber (k : Kind) (a : Address) : Nat := k.number * 0x10000 + a.toNat

/-- The bus line that a number stands for (R122), with the data byte and the cycle count given beside it; the data byte
is present only when bit 16 says write (R90). -/
def TraceLine.ofNumber {C : Type} (n : Nat) (data : Byte) (cycle : C) : Except DecodeReject (TraceLine C) :=
  if n < 0x20000 then
    .ok (.bus (BitVec.ofNat 16 n) (if n.testBit 16 then .wr data cycle else .rd cycle))
  else .error (.notABusNumber n)

/-- The line that a word of the opcode table stands for. The rows of format `IOADDR` give 16 bits, read as the number of
R122 with data 0 and cycle count 0, the defaults of R120. A shorter word belongs to a `SNAPLEN` row, to which R122 gives
no bits; it is read as the length of a snapshot of zero bytes handed to the hi-res decoder (log 2). -/
def tableLine (nbits w : Nat) : Option TraceLine :=
  if nbits < 16 then some (.dec (.hires true) (List.replicate w 0))
  else match TraceLine.ofNumber w 0 0 with
    | .ok line => some line
    | .error _ => none

/-- The instruction read from a word of the opcode table, bit 0 the least significant. -/
def decodeTableWord (nbits w : Nat) : Option Instr :=
  (tableLine nbits w).map decode

/-- The line of an operation, from the addresses and lengths of the opcode table. -/
def encode : Instr → TraceLine
  | .store80Off acc => .bus 0xC000 acc
  | .store80On acc => .bus 0xC001 acc
  | .ramRdOff acc => .bus 0xC002 acc
  | .ramRdOn acc => .bus 0xC003 acc
  | .ramWrtOff acc => .bus 0xC004 acc
  | .ramWrtOn acc => .bus 0xC005 acc
  | .intCxRomOff acc => .bus 0xC006 acc
  | .intCxRomOn acc => .bus 0xC007 acc
  | .altZpOff acc => .bus 0xC008 acc
  | .altZpOn acc => .bus 0xC009 acc
  | .slotC3RomOff acc => .bus 0xC00A acc
  | .slotC3RomOn acc => .bus 0xC00B acc
  | .column80Off acc => .bus 0xC00C acc
  | .column80On acc => .bus 0xC00D acc
  | .altCharSetOff acc => .bus 0xC00E acc
  | .altCharSetOn acc => .bus 0xC00F acc
  | .kbrdStrobeStatus acc => .bus 0xC010 acc
  | .bsrBank2Status acc => .bus 0xC011 acc
  | .bsrReadRamStatus acc => .bus 0xC012 acc
  | .ramRdStatus acc => .bus 0xC013 acc
  | .ramWrtStatus acc => .bus 0xC014 acc
  | .intCxRomStatus acc => .bus 0xC015 acc
  | .altZpStatus acc => .bus 0xC016 acc
  | .slotC3RomStatus acc => .bus 0xC017 acc
  | .store80Status acc => .bus 0xC018 acc
  | .textStatus acc => .bus 0xC01A acc
  | .mixedStatus acc => .bus 0xC01B acc
  | .page2Status acc => .bus 0xC01C acc
  | .hiresStatus acc => .bus 0xC01D acc
  | .altCharSetStatus acc => .bus 0xC01E acc
  | .column80Status acc => .bus 0xC01F acc
  | .speakerOff acc => .bus 0xC030 acc
  | .speakerOn acc => .bus 0xC031 acc
  | .textOff acc => .bus 0xC050 acc
  | .textOn acc => .bus 0xC051 acc
  | .mixedOff acc => .bus 0xC052 acc
  | .mixedOn acc => .bus 0xC053 acc
  | .page2Off acc => .bus 0xC054 acc
  | .page2On acc => .bus 0xC055 acc
  | .hiresOff acc => .bus 0xC056 acc
  | .hiresOn acc => .bus 0xC057 acc
  | .pb0Status acc => .bus 0xC061 acc
  | .pb1Status acc => .bus 0xC062 acc
  | .pb2Status acc => .bus 0xC063 acc
  | .paddle0Status acc => .bus 0xC064 acc
  | .paddle1Status acc => .bus 0xC065 acc
  | .paddle2Status acc => .bus 0xC066 acc
  | .paddle3Status acc => .bus 0xC067 acc
  | .ptrigStatus acc => .bus 0xC070 acc
  | .bsrSel0Off acc => .bus 0xC080 acc
  | .bsrSel0On acc => .bus 0xC081 acc
  | .bsrSel1Off acc => .bus 0xC082 acc
  | .bsrSel1On acc => .bus 0xC083 acc
  | .bsrSel2Off acc => .bus 0xC084 acc
  | .bsrSel2On acc => .bus 0xC085 acc
  | .bsrSel3Off acc => .bus 0xC086 acc
  | .bsrSel3On acc => .bus 0xC087 acc
  | .bsrSel4Off acc => .bus 0xC088 acc
  | .bsrSel4On acc => .bus 0xC089 acc
  | .bsrSel5Off acc => .bus 0xC08A acc
  | .bsrSel5On acc => .bus 0xC08B acc
  | .bsrSel6Off acc => .bus 0xC08C acc
  | .bsrSel6On acc => .bus 0xC08D acc
  | .bsrSel7Off acc => .bus 0xC08E acc
  | .bsrSel7On acc => .bus 0xC08F acc
  | .drvSm0Off acc => .bus 0xC0E0 acc
  | .drvSm0On acc => .bus 0xC0E1 acc
  | .drvSm1Off acc => .bus 0xC0E2 acc
  | .drvSm1On acc => .bus 0xC0E3 acc
  | .drvSm2Off acc => .bus 0xC0E4 acc
  | .drvSm2On acc => .bus 0xC0E5 acc
  | .drvSm3Off acc => .bus 0xC0E6 acc
  | .drvSm3On acc => .bus 0xC0E7 acc
  | .unmapped a acc => .bus a acc
  | .decText960 snap alt flash mixed color => .dec (.text alt flash mixed color) snap
  | .decText1920 snap alt flash mixed color => .dec (.text alt flash mixed color) snap
  | .decLores800 snap color => .dec (.lores color) snap
  | .decLores960 snap color => .dec (.lores color) snap
  | .decLores1600 snap color => .dec (.lores color) snap
  | .decLores1920 snap color => .dec (.lores color) snap
  | .decHires6400 snap color => .dec (.hires color) snap
  | .decHires7680 snap color => .dec (.hires color) snap
  | .decHires12800 snap color => .dec (.hires color) snap
  | .decHires15360 snap color => .dec (.hires color) snap
  | .decEmpty call => .dec call []
  | .decBadLen call snap => .dec call snap
  | .reset => .reset
  | .tick => .tick

/-- The switch and the role of a bus row, from the columns of the opcode table; `none` for the other rows. -/
def Instr.switchRole : Instr → Option (SwitchName × Role)
  | .store80Off _ => some (.store80, .off)
  | .store80On _ => some (.store80, .on)
  | .ramRdOff _ => some (.ramRd, .off)
  | .ramRdOn _ => some (.ramRd, .on)
  | .ramWrtOff _ => some (.ramWrt, .off)
  | .ramWrtOn _ => some (.ramWrt, .on)
  | .intCxRomOff _ => some (.intCxRom, .off)
  | .intCxRomOn _ => some (.intCxRom, .on)
  | .altZpOff _ => some (.altZp, .off)
  | .altZpOn _ => some (.altZp, .on)
  | .slotC3RomOff _ => some (.slotC3Rom, .off)
  | .slotC3RomOn _ => some (.slotC3Rom, .on)
  | .column80Off _ => some (.column80, .off)
  | .column80On _ => some (.column80, .on)
  | .altCharSetOff _ => some (.altCharSet, .off)
  | .altCharSetOn _ => some (.altCharSet, .on)
  | .kbrdStrobeStatus _ => some (.kbrdStrobe, .status)
  | .bsrBank2Status _ => some (.bsrBank2, .status)
  | .bsrReadRamStatus _ => some (.bsrReadRam, .status)
  | .ramRdStatus _ => some (.ramRd, .status)
  | .ramWrtStatus _ => some (.ramWrt, .status)
  | .intCxRomStatus _ => some (.intCxRom, .status)
  | .altZpStatus _ => some (.altZp, .status)
  | .slotC3RomStatus _ => some (.slotC3Rom, .status)
  | .store80Status _ => some (.store80, .status)
  | .textStatus _ => some (.text, .status)
  | .mixedStatus _ => some (.mixed, .status)
  | .page2Status _ => some (.page2, .status)
  | .hiresStatus _ => some (.hires, .status)
  | .altCharSetStatus _ => some (.altCharSet, .status)
  | .column80Status _ => some (.column80, .status)
  | .speakerOff _ => some (.speaker, .off)
  | .speakerOn _ => some (.speaker, .on)
  | .textOff _ => some (.text, .off)
  | .textOn _ => some (.text, .on)
  | .mixedOff _ => some (.mixed, .off)
  | .mixedOn _ => some (.mixed, .on)
  | .page2Off _ => some (.page2, .off)
  | .page2On _ => some (.page2, .on)
  | .hiresOff _ => some (.hires, .off)
  | .hiresOn _ => some (.hires, .on)
  | .pb0Status _ => some (.pb0, .status)
  | .pb1Status _ => some (.pb1, .status)
  | .pb2Status _ => some (.pb2, .status)
  | .paddle0Status _ => some (.paddle0, .status)
  | .paddle1Status _ => some (.paddle1, .status)
  | .paddle2Status _ => some (.paddle2, .status)
  | .paddle3Status _ => some (.paddle3, .status)
  | .ptrigStatus _ => some (.ptrig, .status)
  | .bsrSel0Off _ => some (.bsrSel0, .off)
  | .bsrSel0On _ => some (.bsrSel0, .on)
  | .bsrSel1Off _ => some (.bsrSel1, .off)
  | .bsrSel1On _ => some (.bsrSel1, .on)
  | .bsrSel2Off _ => some (.bsrSel2, .off)
  | .bsrSel2On _ => some (.bsrSel2, .on)
  | .bsrSel3Off _ => some (.bsrSel3, .off)
  | .bsrSel3On _ => some (.bsrSel3, .on)
  | .bsrSel4Off _ => some (.bsrSel4, .off)
  | .bsrSel4On _ => some (.bsrSel4, .on)
  | .bsrSel5Off _ => some (.bsrSel5, .off)
  | .bsrSel5On _ => some (.bsrSel5, .on)
  | .bsrSel6Off _ => some (.bsrSel6, .off)
  | .bsrSel6On _ => some (.bsrSel6, .on)
  | .bsrSel7Off _ => some (.bsrSel7, .off)
  | .bsrSel7On _ => some (.bsrSel7, .on)
  | .drvSm0Off _ => some (.drvSm0, .off)
  | .drvSm0On _ => some (.drvSm0, .on)
  | .drvSm1Off _ => some (.drvSm1, .off)
  | .drvSm1On _ => some (.drvSm1, .on)
  | .drvSm2Off _ => some (.drvSm2, .off)
  | .drvSm2On _ => some (.drvSm2, .on)
  | .drvSm3Off _ => some (.drvSm3, .off)
  | .drvSm3On _ => some (.drvSm3, .on)
  | .unmapped _ _ | .decText960 _ _ _ _ _ | .decText1920 _ _ _ _ _ | .decLores800 _ _ | .decLores960 _ _
  | .decLores1600 _ _ | .decLores1920 _ _ | .decHires6400 _ _ | .decHires7680 _ _ | .decHires12800 _ _
  | .decHires15360 _ _ | .decEmpty _ | .decBadLen _ _ | .reset | .tick => none

/-- The line with data 0 and cycle count 0 that a kind and an optional address give (R120 defaults). -/
def plainLine (k : Kind) (a : Option Address) : Option TraceLine :=
  a.map fun a => .bus a (match k with | .rd => .rd 0 | .wr => .wr 0 0)

/-- The expansion of a pseudo-operation against a table (R121); `none` where the switch has no such address. -/
def PseudoOp.expand (table : List SwitchEntry) : PseudoOp → Option TraceLine
  | .set n => plainLine .wr ((Machine.entryNamed table n).bind (·.onAddress))
  | .clr n => plainLine .wr ((Machine.entryNamed table n).bind (·.offAddress))
  | .tst n => plainLine .rd ((Machine.entryNamed table n).bind (·.statusAddress))
  | .rset n => plainLine .rd ((Machine.entryNamed table n).bind (·.onAddress))
  | .rclr n => plainLine .rd ((Machine.entryNamed table n).bind (·.offAddress))

end Sys2Proof
end

