-- ==== Sys2Proof/Machine/Flags.lean ====
section
/-!
DEFINITION. The block's flags are its status bits (spec/10_state.md R26, 40_dispatch.md R136 to R139): the sentinel byte
that shows a latch in bit 7, and the gate that says whether an access may change a latch.
-/
namespace Sys2Proof.Machine

/-- `Sentinel(b)` (R139). -/
def sentinel (cfg : Config) (b : Bool) : Byte := if b then cfg.sentSet else cfg.sentClear

/-- The flag that software tests in a status byte: bit 7 (R26, R110). -/
def statusFlag (v : Byte) : Bool := v.getLsbD 7

/-- `Fires(writeOnly, kind)` (R136); under `EXACT` the kind must equal the flag (R137). -/
def fires : WriteOnlyPolicy → Bool → Kind → Bool
  | .gate, false, _ => true
  | .gate, true, .rd => false
  | .gate, true, .wr => true
  | .exact, false, .rd => true
  | .exact, false, .wr => false
  | .exact, true, .rd => false
  | .exact, true, .wr => true

/-- Whether an access to an off or on address invokes the handler of its switch: always under `GATE` (R134), by the same
gate as a plain switch under `EXACT` (R137). -/
def handlerFires : WriteOnlyPolicy → Bool → Kind → Bool
  | .gate, _, _ => true
  | .exact, wo, k => fires .exact wo k

end Sys2Proof.Machine
end

