-- ==== Sys2Proof/Machine/Memory.lean ====
section
/-!
DEFINITION. The status region `STATUS` (spec/10_state.md R32 to R34) as a list of (address, byte) cells, and the keyed
lists that hold the latches and the handler-owned states. What an unlisted address of the region reads as is `none`: no
byte is stored there, and a read of it is a free value (R34; log 4; the one kind of stored byte that is not core-owned is
log 29).
-/
namespace Sys2Proof.Machine

/-- The stored bytes of the status region, by address. -/
abbrev Memory := List Host.Cell

/-- The first address of the status region (R32). -/
def Memory.base : Nat := 0xC000

/-- The last address of the status region (R32). -/
def Memory.limit : Nat := 0xC0FF

/-- The stored byte of an address; `none` for an unlisted one. -/
def Memory.read? : Memory → Nat → Option Byte
  | [], _ => none
  | (a, b) :: m, k => if a = k then some b else Memory.read? m k

/-- Store a byte, keeping the addresses rising. -/
def Memory.write : Memory → Nat → Byte → Memory
  | [], k, v => [(k, v)]
  | (a, b) :: m, k, v =>
    if k < a then (k, v) :: (a, b) :: m
    else if k = a then (k, v) :: m
    else (a, b) :: Memory.write m k v

/-- The addresses are strictly rising. -/
def Memory.rising : Memory → Bool
  | [] => true
  | [_] => true
  | (a, _) :: (a', b') :: m => decide (a < a') && Memory.rising ((a', b') :: m)

/-- The address lies in the status region. -/
def Memory.inRegion (k : Nat) : Bool := decide (Memory.base ≤ k) && decide (k ≤ Memory.limit)

/-- The canonical form: addresses strictly rising, all of them in the region. (No stored byte equals what an unlisted
address reads as, since an unlisted address reads as no byte.) -/
def Memory.wf (m : Memory) : Bool :=
  Memory.rising m && m.all fun c => Memory.inRegion c.1

/-- A keyed list: the value of the first pair that carries the key, or `d`. -/
def keyedGet {α β : Type} [DecidableEq α] (d : β) : List (α × β) → α → β
  | [], _ => d
  | (k, v) :: l, key => if k = key then v else keyedGet d l key

/-- A keyed list with the value of one key replaced, or added at the end when the list does not carry the key. -/
def keyedSet {α β : Type} [DecidableEq α] : List (α × β) → α → β → List (α × β)
  | [], key, v => [(key, v)]
  | (k, w) :: l, key, v => if k = key then (k, v) :: l else (k, w) :: keyedSet l key v

end Sys2Proof.Machine
end

