-- ==== Sys2Proof/Machine/ResetValues.lean ====
section
/-!
DEFINITION. What `Reset` writes (spec/70_reset_and_hazards.md R402, 10_state.md R45), as values of the parts of the state.
The zeros are the spec's own decision D9 (log 8); `TEXT` on is the source's.
-/
namespace Sys2Proof.Machine

/-- The latches after reset: 1 for the entry named `TEXT`, 0 for every other entry of the table. -/
def resetLatches (cfg : Config) : List (SwitchName × Bool) :=
  cfg.table.map fun e => (e.name, e.name == SwitchName.text)

/-- The status byte of one entry rewritten from its latch, when the entry has no handler and has a status address. -/
def refreshCell (cfg : Config) (latches : List (SwitchName × Bool)) (m : Memory) (e : SwitchEntry) : Memory :=
  match e.handler, e.statusAddress with
  | none, some a => m.write a.toNat (sentinel cfg (keyedGet false latches e.name))
  | _, _ => m

/-- The status region after reset: every core-owned byte at the sentinel of its latch; no other byte is written. -/
def resetStatus (cfg : Config) (m : Memory) : Memory :=
  cfg.table.foldl (refreshCell cfg (resetLatches cfg)) m

/-- The derived BankedRAM latches after reset: all 0. -/
def resetBanked : Vector Bool 8 := Vector.replicate 8 false

end Sys2Proof.Machine
end

