-- ==== Sys2Proof/Machine/State.lean ====
section
/-!
DEFINITION. The state of the machine as plain data (spec/10_state.md R20 to R41), the values a step leaves behind, and the
ways a step can end. `State.reset` is the machine right after construction and reset (R45, R402).
-/
namespace Sys2Proof.Machine

/-- A record of the event log (R35, R372). Raising one is no fault: the step goes on and succeeds (R371, R378). -/
inductive Event (C : Type := Cycle) where
  /-- Code 1: an access to an address that no entry of the table answers (R373). -/
  | unknownSoftSwitch (address : Address) (kind : Kind) (cycle : C)
  /-- Code 2: a decode call with a positive length that selects no mode (R374). -/
  | badLength (decoder : DecoderKind) (length : Nat)
  deriving DecidableEq, Repr

/-- The record `Invoked(h, address, cycleCount)` of the call of an external handler (R250). -/
structure Invocation (C : Type := Cycle) where
  handler : HandlerId
  address : Address
  cycle   : C
  deriving DecidableEq, Repr

/-- An event that a handler hands off to its peripheral (R247). -/
inductive Outbound (C : Type := Cycle) where
  /-- `Click(cycleCount)`: the speaker's audio click. -/
  | click (cycle : C)
  /-- An event of another handler (R243: "It may emit outbound events to its peripheral"), of which the spec gives no
  content: the code stands for it. -/
  | emitted (handler : HandlerId) (code : Nat)
  deriving DecidableEq, Repr

/-- A glyph code (R296): 7 bits, naming a character or a pictograph of the MouseText set. -/
inductive Glyph where
  | character (code : BitVec 7)
  | mouseText (code : BitVec 7)
  deriving DecidableEq, Repr

/-- One character position of the text output (R292). -/
structure TextCell where
  visible : Bool
  glyph   : Glyph
  inverse : Bool
  deriving DecidableEq, Repr

/-- The output of the text pipeline (R292, R295, R297): the cells by row and column, the width of a cell in pixels (its
height is 8), the two colours. -/
structure CellBuffer where
  cells      : List (List TextCell)
  charWidth  : Nat
  foreground : Rgb
  background : Rgb
  deriving DecidableEq, Repr

/-- The output of a graphics pipeline (R63): 560 pixels wide, four bytes R, G, B, A a pixel, row by row. -/
structure PixelBuffer where
  height : Nat
  bytes  : List Byte
  deriving DecidableEq, Repr

/-- What a decode call returns (R260, R263). -/
inductive DecodeOutput where
  | empty
  | cells (buffer : CellBuffer)
  | pixels (buffer : PixelBuffer)
  deriving DecidableEq, Repr

/-- The parameters that construction checks beside the table (R415, with the sizes and the white entry that R6 gives). -/
inductive Parameter where
  | sentSet
  | sentClear
  | flashPeriod
  | loresDblPerm
  | dhgrPerm
  | palLoresColor
  | palHiresColor
  deriving DecidableEq, Repr

/-- `ConstructionDefect`, code 3 (R372, R375): the rule that the configuration violates and where. -/
inductive ConstructionDefect where
  /-- R410: the entry has no off and no status address. -/
  | noAddress (entry : SwitchName)
  /-- R411: an address of the entry lies outside `0xC000 .. 0xC0FF`. -/
  | addressOutOfRange (entry : SwitchName)
  /-- R412: the entry's on address is not its off address plus 1. -/
  | onNotAdjacent (entry : SwitchName)
  /-- R413: an address of the entry is another present address too. Of the entries that share it, the first (log 30). -/
  | addressRepeated (entry : SwitchName)
  /-- R414: the entry's handler id is bound to no handler. -/
  | handlerUnbound (entry : SwitchName)
  /-- R415: the name of the entry is another entry's too. Of the entries that share it, the first (log 30). -/
  | nameRepeated (entry : SwitchName)
  /-- R415: a constraint on a parameter other than the table does not hold; no entry is at fault. -/
  | badParameter (which : Parameter)
  deriving DecidableEq, Repr

/-- The faults of the machine: there are none. The spec says that every run-time anomaly degrades gracefully and that no
behaviour of the block is a fault or stuck (60_exceptions.md R378, 93 Part A), so no step raises one. -/
inductive Fault where
  deriving DecidableEq, Repr

/-- The refusals. -/
inductive Refusal where
  /-- Raised by `exec` alone, for an instruction that has no meaning yet. Safe. -/
  | notModelled (mnemonic : String)
  /-- Raised by `construct` and by the run of a program alone, never by a step: an ill-formed configuration gives no block
  (R375, R378). Safe. -/
  | constructionDefect (defect : ConstructionDefect)
  deriving DecidableEq, Repr

/-- The state. The first six fields are the tuple of R20; `peripherals` is `P[h]` (R41); `invoked`, `outbound`, `returned`
and `outputs` are what a trace leaves behind (R120, R247, R250); `pending` is the rest of the trace (R40, R120; log 1);
`draws` is the model's own counter of free values (log 3). -/
structure State (C : Type := Cycle) where
  /-- `S`: the `isSet` latch of each entry of the table, by name (R22, R25). -/
  latches     : List (SwitchName × Bool)
  /-- `B`: READBSR2, WRITEBSR2, OFFBSR2, RDWRBSR2, READBSR1, WRITEBSR1, OFFBSR1, RDWRBSR1 (R30). -/
  banked      : Vector Bool 8
  /-- `STATUS`: the stored bytes of the status region (R32, R33; log 4). -/
  status      : Memory
  /-- `FLASHCNT` (R36). -/
  flashCount  : Nat
  /-- `FLASHPHASE` (R36). -/
  flashPhase  : Bool
  /-- `LOG` (R35). -/
  log         : List (Event C)
  /-- `P[h]`: a code of each external handler's own state (R41; log 5). -/
  peripherals : List (HandlerId × Nat)
  /-- The calls of external handlers so far (R250). -/
  invoked     : List (Invocation C)
  /-- The events handed off to peripherals so far (R247). -/
  outbound    : List (Outbound C)
  /-- The trace lines not yet run (R120). -/
  pending     : List (TraceLine C)
  /-- The bytes returned by the reads so far (R120, R150). -/
  returned    : List Byte
  /-- The outputs of the decode calls so far (R120). -/
  outputs     : List DecodeOutput
  /-- The model's own: how many free values have been drawn. -/
  draws       : Nat
  deriving DecidableEq, Repr

/-- Before construction: nothing held, nothing recorded. -/
def State.blank {C : Type} : State C where
  latches     := []
  banked      := resetBanked
  status      := []
  flashCount  := 0
  flashPhase  := false
  log         := []
  peripherals := []
  invoked     := []
  outbound    := []
  pending     := []
  returned    := []
  outputs     := []
  draws       := 0

/-- The machine right after construction and reset, with the configuration of this hardware (R45, R400, R402). -/
def State.reset : State :=
  { State.blank with
    latches := resetLatches refConfig
    banked  := resetBanked
    status  := resetStatus refConfig [] }

end Sys2Proof.Machine
end

