-- ==== Sys2Proof/Machine/Ops.lean ====
section
/-!
DEFINITION. The named operations over the state: latches, status bytes, events, free values, handler invocation, the
BankedRAM decode, `Dispatch` and its bus wrappers (spec/40_dispatch.md, 42_bankedram.md, 43_side_effects.md), `Reset`
(70_reset_and_hazards.md) and the refresh tick (45_text.md). Every operation takes the configuration, so that what holds
of any well-formed table can be said of any.
-/
namespace Sys2Proof.Machine

variable {C : Type}

/-- `S[name]` (R8). For a name that no entry of the table carries the spec gives no value; the model reads 0 (DESIGN CHOICE,
log 32). -/
def State.latch (s : State C) (n : SwitchName) : Bool := keyedGet false s.latches n

/-- `S[name] <- v` (R8). -/
def State.setLatch (s : State C) (n : SwitchName) (v : Bool) : State C :=
  { s with latches := keyedSet s.latches n v }

/-- `STATUS[a] <- v` (R8). -/
def State.writeStatus (s : State C) (a : Address) (v : Byte) : State C :=
  { s with status := s.status.write a.toNat v }

/-- `B <- v`: all eight derived latches at once (R225). -/
def State.setBanked (s : State C) (v : Vector Bool 8) : State C := { s with banked := v }

/-- The code of an event (R372). -/
def Event.code : Event C → Nat
  | .unknownSoftSwitch _ _ _ => 1
  | .badLength _ _ => 2

/-- `raise Event(info)`: append the event to `LOG` and go on (R371). It is the whole of what the block does where a
processor would take an exception: nothing is saved, no control is transferred, there is nothing to return from. -/
def State.raise (s : State C) (e : Event C) : State C := { s with log := s.log ++ [e] }

/-- A read returns a byte (R150). -/
def State.returnByte (s : State C) (b : Byte) : State C := { s with returned := s.returned ++ [b] }

/-- A decode call returns its output (R260). -/
def State.emit (s : State C) (o : DecodeOutput) : State C := { s with outputs := s.outputs ++ [o] }

/-- The record of an external handler's call (R250). -/
def State.recordCall (s : State C) (i : Invocation C) : State C := { s with invoked := s.invoked ++ [i] }

/-- An event handed off to a peripheral (R247). -/
def State.handOff (s : State C) (o : Outbound C) : State C := { s with outbound := s.outbound ++ [o] }

/-- What the next free value of an access may depend on (log 3). -/
def State.draw (s : State C) (a : Address) (cyc : C) : Draw C :=
  ⟨s.draws, a, cyc, s.peripherals, s.latches, s.banked⟩

/-- A read returns a byte that nothing constrains (R34, 93 U1). -/
def State.returnFree (s : State C) (a : Address) (cyc : C) : State C :=
  { s with returned := s.returned ++ [Config.freeByte (s.draw a cyc)], draws := s.draws + 1 }

/-- A latch of a handler takes a value that nothing constrains (R243(b)). -/
def State.drawLatch (s : State C) (h : HandlerId) (a : Address) (cyc : C) (n : SwitchName) : State C :=
  { s with latches := keyedSet s.latches n (Config.freeBit h n (s.draw a cyc)), draws := s.draws + 1 }

/-- `P[h]` takes a value that nothing constrains (R243(a)). -/
def State.drawPeripheral (s : State C) (h : HandlerId) (a : Address) (cyc : C) : State C :=
  { s with
    peripherals := keyedSet s.peripherals h (Config.freePeripheral h (s.draw a cyc))
    draws := s.draws + 1 }

/-- A handler hands off events that nothing constrains, any number of them (R243). -/
def State.drawOutbound (s : State C) (h : HandlerId) (a : Address) (cyc : C) : State C :=
  { s with
    outbound := s.outbound ++ (Config.freeOutbound h (s.draw a cyc)).map (.emitted h)
    draws := s.draws + 1 }

/-- The status byte of an entry rewritten from its latch, when it has a status address (R138, R141). -/
def refreshStatus (cfg : Config) (e : SwitchEntry) (s : State C) : State C :=
  match e.statusAddress with
  | some a => s.writeStatus a (sentinel cfg (s.latch e.name))
  | none => s

/-- One of the two coarse bits of the BankedRAM decode, with its status byte (R226). A table that has no entry of the
name has no such latch and no such byte (log 25). -/
def writeCoarse (cfg : Config) (n : SwitchName) (v : Bool) (s : State C) : State C :=
  match entryNamed cfg.table n with
  | some e => refreshStatus cfg e (s.setLatch n v)
  | none => s

/-- `BankedRAM(address)` (R224). -/
def bankedRam (cfg : Config) (a : Address) (s : State C) : State C :=
  let frag := bankFragment a
  let s := s.setBanked (bankVector frag)
  let s := writeCoarse cfg .bsrBank2 (bankTwoSelected frag) s
  writeCoarse cfg .bsrReadRam (readRamActive frag) s

/-- The latches of a handler's own entries, each at a free value (R243(b)). -/
def drawOwnLatches (cfg : Config) (h : HandlerId) (a : Address) (cyc : C) (s : State C) : State C :=
  (ownEntries cfg.table h).foldl (fun s e => s.drawLatch h a cyc e.name) s

/-- The call of an external handler (R241, R243, R250): the record is exact; its own state and its own latches take any
value, which may depend on the address and the cycle count (log 3); its peripheral-owned status bytes are not stored, so any
later read of one is free already (log 5). The speaker hands off one click at the cycle count and nothing else (R247: "one
event per access"); any other handler hands off any events (R243; log 7). -/
def invokeExternal (cfg : Config) (h : HandlerId) (a : Address) (cyc : C) (s : State C) : State C :=
  let s := s.recordCall ⟨h, a, cyc⟩
  let s := s.drawPeripheral h a cyc
  let s := drawOwnLatches cfg h a cyc s
  match h with
  | .speaker => s.handOff (.click cyc)
  | _ => s.drawOutbound h a cyc

/-- `Invoke(h, address, cycleCount)` (R241): for `BANKEDRAM` exactly the decode, for every other id the oracle. -/
def invoke (cfg : Config) (h : HandlerId) (a : Address) (cyc : C) (s : State C) : State C :=
  match h with
  | .bankedRam => bankedRam cfg a s
  | _ => invokeExternal cfg h a cyc s

/-- Step 2 of Dispatch (R133 to R138): the handler, or the default set or clear when the gate lets it through; then the
status refresh. `v` is 1 for the on address and 0 for the off address. The refresh of a switch that has a handler and a
status address is written, as R138 and R142 say, though R34 says that the core never writes that byte: the model's choice
between the two, log 29. -/
def triggeredAccess (cfg : Config) (e : SwitchEntry) (v : Bool) (a : Address) (k : Kind) (cyc : C) (s : State C) :
    State C :=
  match e.handler with
  | some h =>
    refreshStatus cfg e (if handlerFires cfg.policy e.writeOnly k then invoke cfg h a cyc s else s)
  | none =>
    refreshStatus cfg e (if fires cfg.policy e.writeOnly k then s.setLatch e.name v else s)

/-- Step 3 of Dispatch (R140, R141): the handler, or the status refresh. -/
def statusAccess (cfg : Config) (e : SwitchEntry) (a : Address) (cyc : C) (s : State C) : State C :=
  match e.handler with
  | some h => invoke cfg h a cyc s
  | none => refreshStatus cfg e s

/-- `Dispatch(address, kind, cycleCount)` (R130 to R142). -/
def dispatch (cfg : Config) (a : Address) (k : Kind) (cyc : C) (s : State C) : State C :=
  match lookup cfg.table a with
  | none => s.raise (.unknownSoftSwitch a k cyc)
  | some (e, .off) => triggeredAccess cfg e false a k cyc s
  | some (e, .on) => triggeredAccess cfg e true a k cyc s
  | some (e, .status) => statusAccess cfg e a cyc s

/-- The byte that the core holds at an address: the stored byte of a core-owned one, none elsewhere (R33, R34). -/
def heldByte (cfg : Config) (a : Address) (s : State C) : Option Byte :=
  if coreOwned cfg.table a then s.status.read? a.toNat else none

/-- The data of a read, sampled after Dispatch (R150). -/
def sample (cfg : Config) (a : Address) (cyc : C) (s : State C) : State C :=
  match heldByte cfg a s with
  | some b => s.returnByte b
  | none => s.returnFree a cyc

/-- `BusRead(address, cyc)` (R150). -/
def busRead (cfg : Config) (a : Address) (cyc : C) (s : State C) : State C :=
  sample cfg a cyc (dispatch cfg a .rd cyc s)

/-- `BusWrite(address, data, cyc)` (R151): the data byte is discarded. -/
def busWrite (cfg : Config) (a : Address) (_data : Byte) (cyc : C) (s : State C) : State C :=
  dispatch cfg a .wr cyc s

/-- A bus operation at an address (R90). -/
def busOp (cfg : Config) (a : Address) (acc : BusAccess C) (s : State C) : State C :=
  match acc with
  | .rd cyc => busRead cfg a cyc s
  | .wr data cyc => busWrite cfg a data cyc s

/-- `Reset` (R402): latches, derived latches, core-owned status bytes and the flash counter; nothing else. -/
def hardReset (cfg : Config) (s : State C) : State C :=
  { s with
    latches := resetLatches cfg
    banked := resetBanked
    status := resetStatus cfg s.status
    flashCount := 0
    flashPhase := false }

/-- `Tick` (R298). -/
def flashTick (cfg : Config) (s : State C) : State C :=
  if s.flashCount + 1 = cfg.flashPeriod then
    { s with flashCount := 0, flashPhase := !s.flashPhase }
  else { s with flashCount := s.flashCount + 1 }

end Sys2Proof.Machine
end

