-- ==== Sys2Proof/Machine/BankedRam.lean ====
section
/-!
DEFINITION. The sixteen addresses of the BankedRAM selectors (spec/41_switch_table.md R185 to R192, 42_bankedram.md R222, R224). Each meaning is the bus
operation at the row's address.
-/
namespace Sys2Proof.Machine

/-- BSRSEL0.off (R185). -/
def execBsrSel0Off (acc : BusAccess) (s : State) : Host.Outcome State Fault Refusal :=
  .next (busOp refConfig 0xC080 acc s)

/-- BSRSEL0.on (R185). -/
def execBsrSel0On (acc : BusAccess) (s : State) : Host.Outcome State Fault Refusal :=
  .next (busOp refConfig 0xC081 acc s)

/-- BSRSEL1.off (R186). -/
def execBsrSel1Off (acc : BusAccess) (s : State) : Host.Outcome State Fault Refusal :=
  .next (busOp refConfig 0xC082 acc s)

/-- BSRSEL1.on (R186). -/
def execBsrSel1On (acc : BusAccess) (s : State) : Host.Outcome State Fault Refusal :=
  .next (busOp refConfig 0xC083 acc s)

/-- BSRSEL2.off (R187). -/
def execBsrSel2Off (acc : BusAccess) (s : State) : Host.Outcome State Fault Refusal :=
  .next (busOp refConfig 0xC084 acc s)

/-- BSRSEL2.on (R187). -/
def execBsrSel2On (acc : BusAccess) (s : State) : Host.Outcome State Fault Refusal :=
  .next (busOp refConfig 0xC085 acc s)

/-- BSRSEL3.off (R188). -/
def execBsrSel3Off (acc : BusAccess) (s : State) : Host.Outcome State Fault Refusal :=
  .next (busOp refConfig 0xC086 acc s)

/-- BSRSEL3.on (R188). -/
def execBsrSel3On (acc : BusAccess) (s : State) : Host.Outcome State Fault Refusal :=
  .next (busOp refConfig 0xC087 acc s)

/-- BSRSEL4.off (R189). -/
def execBsrSel4Off (acc : BusAccess) (s : State) : Host.Outcome State Fault Refusal :=
  .next (busOp refConfig 0xC088 acc s)

/-- BSRSEL4.on (R189). -/
def execBsrSel4On (acc : BusAccess) (s : State) : Host.Outcome State Fault Refusal :=
  .next (busOp refConfig 0xC089 acc s)

/-- BSRSEL5.off (R190). -/
def execBsrSel5Off (acc : BusAccess) (s : State) : Host.Outcome State Fault Refusal :=
  .next (busOp refConfig 0xC08A acc s)

/-- BSRSEL5.on (R190). -/
def execBsrSel5On (acc : BusAccess) (s : State) : Host.Outcome State Fault Refusal :=
  .next (busOp refConfig 0xC08B acc s)

/-- BSRSEL6.off (R191). -/
def execBsrSel6Off (acc : BusAccess) (s : State) : Host.Outcome State Fault Refusal :=
  .next (busOp refConfig 0xC08C acc s)

/-- BSRSEL6.on (R191). -/
def execBsrSel6On (acc : BusAccess) (s : State) : Host.Outcome State Fault Refusal :=
  .next (busOp refConfig 0xC08D acc s)

/-- BSRSEL7.off (R192). -/
def execBsrSel7Off (acc : BusAccess) (s : State) : Host.Outcome State Fault Refusal :=
  .next (busOp refConfig 0xC08E acc s)

/-- BSRSEL7.on (R192). -/
def execBsrSel7On (acc : BusAccess) (s : State) : Host.Outcome State Fault Refusal :=
  .next (busOp refConfig 0xC08F acc s)

end Sys2Proof.Machine
end

