-- ==== Sys2Proof/Machine/DiskPhases.lean ====
section
/-!
DEFINITION. The off and on addresses of the four disk phases (spec/41_switch_table.md R193 to R196): plain switches without a status
byte. Each meaning is the bus
operation at the row's address.
-/
namespace Sys2Proof.Machine

/-- DRVSM0.off (R193). -/
def execDrvSm0Off (acc : BusAccess) (s : State) : Host.Outcome State Fault Refusal :=
  .next (busOp refConfig 0xC0E0 acc s)

/-- DRVSM0.on (R193). -/
def execDrvSm0On (acc : BusAccess) (s : State) : Host.Outcome State Fault Refusal :=
  .next (busOp refConfig 0xC0E1 acc s)

/-- DRVSM1.off (R194). -/
def execDrvSm1Off (acc : BusAccess) (s : State) : Host.Outcome State Fault Refusal :=
  .next (busOp refConfig 0xC0E2 acc s)

/-- DRVSM1.on (R194). -/
def execDrvSm1On (acc : BusAccess) (s : State) : Host.Outcome State Fault Refusal :=
  .next (busOp refConfig 0xC0E3 acc s)

/-- DRVSM2.off (R195). -/
def execDrvSm2Off (acc : BusAccess) (s : State) : Host.Outcome State Fault Refusal :=
  .next (busOp refConfig 0xC0E4 acc s)

/-- DRVSM2.on (R195). -/
def execDrvSm2On (acc : BusAccess) (s : State) : Host.Outcome State Fault Refusal :=
  .next (busOp refConfig 0xC0E5 acc s)

/-- DRVSM3.off (R196). -/
def execDrvSm3Off (acc : BusAccess) (s : State) : Host.Outcome State Fault Refusal :=
  .next (busOp refConfig 0xC0E6 acc s)

/-- DRVSM3.on (R196). -/
def execDrvSm3On (acc : BusAccess) (s : State) : Host.Outcome State Fault Refusal :=
  .next (busOp refConfig 0xC0E7 acc s)

end Sys2Proof.Machine
end

