-- ==== Sys2Proof/Machine/DisplaySwitches.lean ====
section
/-!
DEFINITION. The off and on addresses of the four display switches (spec/41_switch_table.md R173 to R176): a read or a write sets or
clears the latch. Each meaning is the bus
operation at the row's address.
-/
namespace Sys2Proof.Machine

/-- TEXT.off (R173). -/
def execTextOff (acc : BusAccess) (s : State) : Host.Outcome State Fault Refusal :=
  .next (busOp refConfig 0xC050 acc s)

/-- TEXT.on (R173). -/
def execTextOn (acc : BusAccess) (s : State) : Host.Outcome State Fault Refusal :=
  .next (busOp refConfig 0xC051 acc s)

/-- MIXED.off (R174). -/
def execMixedOff (acc : BusAccess) (s : State) : Host.Outcome State Fault Refusal :=
  .next (busOp refConfig 0xC052 acc s)

/-- MIXED.on (R174). -/
def execMixedOn (acc : BusAccess) (s : State) : Host.Outcome State Fault Refusal :=
  .next (busOp refConfig 0xC053 acc s)

/-- PAGE2.off (R175). -/
def execPage2Off (acc : BusAccess) (s : State) : Host.Outcome State Fault Refusal :=
  .next (busOp refConfig 0xC054 acc s)

/-- PAGE2.on (R175). -/
def execPage2On (acc : BusAccess) (s : State) : Host.Outcome State Fault Refusal :=
  .next (busOp refConfig 0xC055 acc s)

/-- HIRES.off (R176). -/
def execHiresOff (acc : BusAccess) (s : State) : Host.Outcome State Fault Refusal :=
  .next (busOp refConfig 0xC056 acc s)

/-- HIRES.on (R176). -/
def execHiresOn (acc : BusAccess) (s : State) : Host.Outcome State Fault Refusal :=
  .next (busOp refConfig 0xC057 acc s)

end Sys2Proof.Machine
end

