-- ==== Sys2Proof/Machine/PeripheralReads.lean ====
section
/-!
DEFINITION. The status addresses with a handler (spec/40_dispatch.md R140): keyboard strobe, push buttons, paddles, paddle trigger
(41_switch_table.md R169, R177 to R184). Each meaning is the bus
operation at the row's address.
-/
namespace Sys2Proof.Machine

/-- KBRDSTROBE.status (R169). -/
def execKbrdStrobeStatus (acc : BusAccess) (s : State) : Host.Outcome State Fault Refusal :=
  .next (busOp refConfig 0xC010 acc s)

/-- PB0.status (R177). -/
def execPb0Status (acc : BusAccess) (s : State) : Host.Outcome State Fault Refusal :=
  .next (busOp refConfig 0xC061 acc s)

/-- PB1.status (R178). -/
def execPb1Status (acc : BusAccess) (s : State) : Host.Outcome State Fault Refusal :=
  .next (busOp refConfig 0xC062 acc s)

/-- PB2.status (R179). -/
def execPb2Status (acc : BusAccess) (s : State) : Host.Outcome State Fault Refusal :=
  .next (busOp refConfig 0xC063 acc s)

/-- PADDLE0.status (R180). -/
def execPaddle0Status (acc : BusAccess) (s : State) : Host.Outcome State Fault Refusal :=
  .next (busOp refConfig 0xC064 acc s)

/-- PADDLE1.status (R181). -/
def execPaddle1Status (acc : BusAccess) (s : State) : Host.Outcome State Fault Refusal :=
  .next (busOp refConfig 0xC065 acc s)

/-- PADDLE2.status (R182). -/
def execPaddle2Status (acc : BusAccess) (s : State) : Host.Outcome State Fault Refusal :=
  .next (busOp refConfig 0xC066 acc s)

/-- PADDLE3.status (R183). -/
def execPaddle3Status (acc : BusAccess) (s : State) : Host.Outcome State Fault Refusal :=
  .next (busOp refConfig 0xC067 acc s)

/-- PTRIG.status (R184). -/
def execPtrigStatus (acc : BusAccess) (s : State) : Host.Outcome State Fault Refusal :=
  .next (busOp refConfig 0xC070 acc s)

end Sys2Proof.Machine
end

