-- ==== Sys2Proof/Machine/RefreshAndReset.lean ====
section
/-!
DEFINITION. The meanings of RESET (spec/70_reset_and_hazards.md R402) and TICK (45_text.md R298).
-/
namespace Sys2Proof.Machine

/-- RESET (R402). -/
def execReset (s : State) : Host.Outcome State Fault Refusal := .next (hardReset refConfig s)

/-- TICK (R298). -/
def execTick (s : State) : Host.Outcome State Fault Refusal := .next (flashTick refConfig s)

end Sys2Proof.Machine
end

