-- ==== Sys2Proof/Machine/VideoCommon.lean ====
section
/-!
DEFINITION. What the four pipelines share (spec/44_video_common.md): the classification of a snapshot by its length, the
rejection of the other lengths, the palettes and the palette stage, the filling of a run of pixels.
-/
namespace Sys2Proof.Machine

/-- The width of every output in pixels (R63). -/
def frameWidth : Nat := 560

/-- The mode that a length selects (R261). Text has no mixed mode of its own; the field is then `none`. -/
structure Shape where
  lines        : Nat
  charsPerLine : Nat
  mixedMode    : Option Bool
  doubleRes    : Bool
  deriving DecidableEq, Repr

/-- `Classify(decoder, length)` (R261). -/
def classify (d : DecoderKind) (length : Nat) : Option Shape :=
  match d with
  | .text =>
    if length = 960 then some ⟨24, 40, none, false⟩
    else if length = 1920 then some ⟨24, 80, none, true⟩
    else none
  | .lores =>
    if length = 800 then some ⟨20, 40, some true, false⟩
    else if length = 960 then some ⟨24, 40, some false, false⟩
    else if length = 1600 then some ⟨20, 80, some true, true⟩
    else if length = 1920 then some ⟨24, 80, some false, true⟩
    else none
  | .hires =>
    if length = 6400 then some ⟨160, 40, some true, false⟩
    else if length = 7680 then some ⟨192, 40, some false, false⟩
    else if length = 12800 then some ⟨160, 80, some true, true⟩
    else if length = 15360 then some ⟨192, 80, some false, true⟩
    else none

/-- The common part of a decode call (R262): a zero length returns `Empty` and raises nothing, another unknown length
returns `Empty` and raises `BadLength`, a known one returns what the pipeline renders. -/
def decodeRequest {C : Type} (d : DecoderKind) (snap : List Byte) (render : Shape → DecodeOutput)
    (s : State C) : State C :=
  if snap.length = 0 then s.emit .empty
  else
    match classify d snap.length with
    | none => (s.raise (.badLength d snap.length)).emit .empty
    | some shape => s.emit (render shape)

/-- Black: entry 0 of every palette (R266, R271 to R274), the background of text (R295). -/
def black : Rgb := ⟨0, 0, 0⟩

/-- White. -/
def white : Rgb := ⟨255, 255, 255⟩

/-- One channel scaled by an intensity in fifteenths: `floor(c * n / 15)` (R9(f), R273). -/
def scaleChannel (c : Byte) (n : Nat) : Byte := BitVec.ofNat 8 (c.toNat * n / 15)

/-- `PAL_LORES_MONO[n]` (R273). -/
def loresMonoEntry (phosphor : Rgb) (n : Nat) : Rgb :=
  ⟨scaleChannel phosphor.red n, scaleChannel phosphor.green n, scaleChannel phosphor.blue n⟩

/-- `PAL_LORES_MONO` (R273). -/
def palLoresMono (cfg : Config) : List Rgb := (List.range 16).map (loresMonoEntry cfg.phosphor)

/-- `PAL_HIRES_MONO` (R274): black for 0 and 4, the phosphor colour elsewhere. -/
def palHiresMono (cfg : Config) : List Rgb :=
  (List.range 8).map fun i => if i = 0 ∨ i = 4 then black else cfg.phosphor

/-- The 16-entry palette that `colorEnabled` selects: LoRes and DoubleHiRes (R275). -/
def loresPalette (cfg : Config) (color : Bool) : List Rgb := if color then cfg.palLoresColor else palLoresMono cfg

/-- The 8-entry palette that `colorEnabled` selects: HiRes (R275). -/
def hiresPalette (cfg : Config) (color : Bool) : List Rgb := if color then cfg.palHiresColor else palHiresMono cfg

/-- The four bytes of a pixel: red, green, blue, alpha (R63, R111). -/
def pixelBytes (alpha : Byte) (c : Rgb) : List Byte := [c.red, c.green, c.blue, alpha]

/-- The palette stage (R275): the bytes of an index buffer, row by row, pixel by pixel. -/
def palettize (cfg : Config) (palette : List Rgb) (rows : List (List Nat)) : PixelBuffer where
  height := rows.length
  bytes := rows.flatMap fun row => row.flatMap fun i => pixelBytes cfg.alpha (palette.getD i black)

/-- `fill` from column `x` on: the pixels of `[lo, hi]` take the value (R8). A run is clipped to the line because only the
line's own pixels are visited. -/
def fillFrom (lo hi : Int) (v : Nat) : Nat → List Nat → List Nat
  | _, [] => []
  | x, p :: rest => (if lo ≤ (x : Int) ∧ (x : Int) ≤ hi then v else p) :: fillFrom lo hi v (x + 1) rest

/-- `fill(line, lo, hi, v)` (R8). -/
def fill (line : List Nat) (lo hi : Int) (v : Nat) : List Nat := fillFrom lo hi v 0 line

/-- A line of the index buffer before anything is written: all 0 (R266). -/
def blankLine : List Nat := List.replicate frameWidth 0

/-- The bytes of line `j` of a snapshot of `width` bytes a line (R62). -/
def lineBytes (snap : List Byte) (width j : Nat) : List Byte := (snap.drop (width * j)).take width

/-- The value of the `flash` operand of `DEC.TEXT` (R36, R290). -/
def flashValue {C : Type} (arg : FlashArg) (s : State C) : Bool :=
  match arg with
  | .value b => b
  | .flashPhase => s.flashPhase

end Sys2Proof.Machine
end

