-- ==== Sys2Proof/Machine/DoubleHiResPipeline.lean ====
section
/-!
DEFINITION. The double hi-res pipeline (spec/48_dhires.md R350 to R359): the bit-interleaved nibble decoder.
-/
namespace Sys2Proof.Machine

/-- The index of pixel `x` of a line (R353, R356): with colour the permuted window, without it full white for a set
bit. -/
def dhiresPixel (cfg : Config) (color : Bool) (line : List Byte) (x : Nat) : Nat :=
  if color then cfg.dhgrPerm.getD (dhiresWindow line x) 0
  else if streamBit line x then 15 else 0

/-- `DecodeDHiResLine` (R357). -/
def dhiresLine (cfg : Config) (color : Bool) (line : List Byte) : List Nat :=
  (List.range frameWidth).map fun x => dhiresPixel cfg color line x

/-- The index buffer of a snapshot: each line of 80 bytes on its own (R350, R357). -/
def dhiresIndex (cfg : Config) (color : Bool) (snap : List Byte) (lines : Nat) : List (List Nat) :=
  (List.range lines).map fun j => dhiresLine cfg color (lineBytes snap 80 j)

/-- The output of `DecodeDoubleHiRes` (R350, R357): the 16-entry palettes. -/
def dhiresOutput (cfg : Config) (color : Bool) (snap : List Byte) (shape : Shape) : DecodeOutput :=
  .pixels (palettize cfg (loresPalette cfg color) (dhiresIndex cfg color snap shape.lines))

end Sys2Proof.Machine
end

