-- ==== Sys2Proof/Machine/HiResPipeline.lean ====
section
/-!
DEFINITION. The hi-res pipeline and the colour-artifact engine (spec/47_hires.md R325 to R338), the hi-res entry point
that sends the double lengths to the double hi-res path, and the meanings of its four rows.
-/
namespace Sys2Proof.Machine

/-- The walk over the columns of a line (R328, R38): the `skip` flag and the line written so far. -/
structure Walk where
  skip : Bool
  line : List Nat
  deriving DecidableEq, Repr

/-- The normal start of column `k`: `x0 = 2 * k + H` (R326). -/
def normalStart (line : List Byte) (k : Nat) : Int := (2 * k + hiresHigh line k : Nat)

/-- The run of a lone bit (R330, R334): `LONE_RUN_LEN` pixels from the normal start. R334 writes the monochrome run as
`[x0, x0 + 3]` and does not say whether it follows the parameter; here it does (DESIGN CHOICE, log 15). -/
def loneRun (cfg : Config) (color : Bool) (line : List Byte) (k : Nat) (out : List Nat) : List Nat :=
  let x0 := normalStart line k
  fill out x0 (x0 + cfg.loneRunLen - 1) (if color then 4 * hiresHigh line k + 2 - k % 2 else 3)

/-- The run of a white pair (R331): with colour it leads by `WHITE_RUN_LEAD` pixels, without it the lead is dropped (R334).
R334 writes the monochrome run as `[x0, x0 + 3]` and does not say what other parameters make of it; here it ends at
`x0 + WHITE_RUN_TAIL`, and the whole lead is dropped (DESIGN CHOICE, log 15). -/
def whiteRun (cfg : Config) (color : Bool) (line : List Byte) (k : Nat) (out : List Nat) : List Nat :=
  let x0 := normalStart line k
  if color then fill out (x0 - cfg.whiteRunLead) (x0 + cfg.whiteRunTail) (4 * hiresHigh line k + 3)
  else fill out x0 (x0 + cfg.whiteRunTail) 3

/-- One column of the walk (R328 to R335). -/
def walkColumn (cfg : Config) (color : Bool) (line : List Byte) (w : Walk) (k : Nat) : Walk :=
  if w.skip then { w with skip := false }
  else if hiresBit line k then
    if hiresNextBit line k then { skip := true, line := whiteRun cfg color line k w.line }
    else { w with line := loneRun cfg color line k w.line }
  else w

/-- `DecodeHiResLine` (R335): the columns in increasing order; `skip` starts at 0 on every line. -/
def hiresLine (cfg : Config) (color : Bool) (line : List Byte) : List Nat :=
  ((List.range hiresColumns).foldl (walkColumn cfg color line) ⟨false, blankLine⟩).line

/-- `DecodeHiResIndex` (R335): each line of 40 bytes on its own. -/
def hiresIndex (cfg : Config) (color : Bool) (snap : List Byte) (lines : Nat) : List (List Nat) :=
  (List.range lines).map fun j => hiresLine cfg color (lineBytes snap 40 j)

/-- The output of the hi-res entry point for a known length (R325): the double lengths take the double hi-res path. -/
def hiresOutput (cfg : Config) (color : Bool) (snap : List Byte) (shape : Shape) : DecodeOutput :=
  if shape.doubleRes then dhiresOutput cfg color snap shape
  else .pixels (palettize cfg (hiresPalette cfg color) (hiresIndex cfg color snap shape.lines))

/-- `DecodeHiRes` (R325, R335, R350). -/
def decodeHiRes {C : Type} (cfg : Config) (snap : List Byte) (color : Bool) (s : State C) : State C :=
  decodeRequest .hires snap (hiresOutput cfg color snap) s

/-- DEC.HIRES.6400 (R335). -/
def execDecHires6400 (snap : List Byte) (color : Bool) (s : State) : Host.Outcome State Fault Refusal :=
  .next (decodeHiRes refConfig snap color s)

/-- DEC.HIRES.7680 (R335). -/
def execDecHires7680 (snap : List Byte) (color : Bool) (s : State) : Host.Outcome State Fault Refusal :=
  .next (decodeHiRes refConfig snap color s)

/-- DEC.HIRES.12800 (R357). -/
def execDecHires12800 (snap : List Byte) (color : Bool) (s : State) : Host.Outcome State Fault Refusal :=
  .next (decodeHiRes refConfig snap color s)

/-- DEC.HIRES.15360 (R357). -/
def execDecHires15360 (snap : List Byte) (color : Bool) (s : State) : Host.Outcome State Fault Refusal :=
  .next (decodeHiRes refConfig snap color s)

end Sys2Proof.Machine
end

