-- ==== Sys2Proof/Machine/LoResPipeline.lean ====
section
/-!
DEFINITION. The lo-res pipeline (spec/46_lores.md R310 to R316) and the meanings of its four rows. The pseudocode of R314
writes every pixel exactly once; `loresPixel` is the value it writes at a place.
-/
namespace Sys2Proof.Machine

/-- The nibble after the double-resolution remap: even columns go through the permutation (R312). -/
def loresRemap (cfg : Config) (doubleRes : Bool) (c n : Nat) : Nat :=
  if doubleRes = true ∧ c % 2 = 0 then cfg.loresDblPerm.getD n 0 else n

/-- `idx[y][x]` (R311, R314): cell row `y / 8`, column `x / charWidth`; the upper four lines of a cell show the low
nibble, the lower four the high nibble. -/
def loresPixel (cfg : Config) (snap : List Byte) (shape : Shape) (y x : Nat) : Nat :=
  let c := x / (frameWidth / shape.charsPerLine)
  let v := byteAt snap (y / 8 * shape.charsPerLine + c)
  loresRemap cfg shape.doubleRes c (if y % 8 < 4 then lowNibble v else highNibble v)

/-- `DecodeLoResIndex` (R314): 560 by `8 * lines`. -/
def loresIndex (cfg : Config) (snap : List Byte) (shape : Shape) : List (List Nat) :=
  (List.range (8 * shape.lines)).map fun y => (List.range frameWidth).map fun x => loresPixel cfg snap shape y x

/-- `DecodeLoRes` (R310, R314). -/
def decodeLoRes {C : Type} (cfg : Config) (snap : List Byte) (color : Bool) (s : State C) : State C :=
  decodeRequest .lores snap
    (fun shape => .pixels (palettize cfg (loresPalette cfg color) (loresIndex cfg snap shape))) s

/-- DEC.LORES.800 (R314). -/
def execDecLores800 (snap : List Byte) (color : Bool) (s : State) : Host.Outcome State Fault Refusal :=
  .next (decodeLoRes refConfig snap color s)

/-- DEC.LORES.960 (R314). -/
def execDecLores960 (snap : List Byte) (color : Bool) (s : State) : Host.Outcome State Fault Refusal :=
  .next (decodeLoRes refConfig snap color s)

/-- DEC.LORES.1600 (R314). -/
def execDecLores1600 (snap : List Byte) (color : Bool) (s : State) : Host.Outcome State Fault Refusal :=
  .next (decodeLoRes refConfig snap color s)

/-- DEC.LORES.1920 (R314). -/
def execDecLores1920 (snap : List Byte) (color : Bool) (s : State) : Host.Outcome State Fault Refusal :=
  .next (decodeLoRes refConfig snap color s)

end Sys2Proof.Machine
end

