-- ==== Sys2Proof/Machine/TextPipeline.lean ====
section
/-!
DEFINITION. The text pipeline (spec/45_text.md R290 to R300) and the meanings of its two rows.
-/
namespace Sys2Proof.Machine

/-- How a character cell renders (R293). -/
inductive TextStyle where
  | inverse
  | flashing
  | normal
  deriving DecidableEq, Repr

/-- `Style(v, altCharset)` (R293, R105). -/
def textStyle (v : Byte) (alt : Bool) : TextStyle :=
  if v.toNat ≤ 63 then .inverse
  else if v.toNat ≤ 127 ∧ alt = false then .flashing
  else if 96 ≤ v.toNat ∧ v.toNat ≤ 127 ∧ alt = true then .inverse
  else .normal

/-- The `inverse` output bit of a style (R294). -/
def inverseBit (flash : Bool) : TextStyle → Bool
  | .inverse => true
  | .flashing => flash
  | .normal => false

/-- `Glyph(v, altCharset)` (R296). -/
def glyphOf (v : Byte) (alt : Bool) : Glyph :=
  let n := v.toNat
  if n ≤ 31 then .character (BitVec.ofNat 7 (n + 64))
  else if n ≤ 63 then .character (BitVec.ofNat 7 n)
  else if n ≤ 95 then
    if alt then .mouseText (BitVec.ofNat 7 n) else .character (BitVec.ofNat 7 n)
  else if n ≤ 127 then
    if alt then .character (BitVec.ofNat 7 n) else .character (BitVec.ofNat 7 (n - 64))
  else if n ≤ 159 then .character (BitVec.ofNat 7 (n - 64))
  else .character (BitVec.ofNat 7 (n - 128))

/-- The cell at row `r`, column `c` (R291, R297). -/
def textCell (snap : List Byte) (charsPerLine : Nat) (alt flash mixed : Bool) (r c : Nat) : TextCell :=
  let v := byteAt snap (r * charsPerLine + c)
  { visible := !mixed || decide (20 ≤ r)
    glyph := glyphOf v alt
    inverse := inverseBit flash (textStyle v alt) }

/-- The cell buffer of a snapshot (R297). -/
def textBuffer (cfg : Config) (snap : List Byte) (alt flash mixed color : Bool) (shape : Shape) : CellBuffer where
  cells := (List.range shape.lines).map fun r =>
    (List.range shape.charsPerLine).map fun c => textCell snap shape.charsPerLine alt flash mixed r c
  charWidth := frameWidth / shape.charsPerLine
  foreground := if color then white else cfg.phosphor
  background := black

/-- The pixels that the cell at row `r`, column `c` covers (R292): first and last column, first and last line. -/
def cellArea (charWidth r c : Nat) : (Nat × Nat) × (Nat × Nat) :=
  ((c * charWidth, (c + 1) * charWidth - 1), (8 * r, 8 * r + 7))

/-- `DecodeText` (R290, R297). -/
def decodeText {C : Type} (cfg : Config) (snap : List Byte) (alt : Bool) (flash : FlashArg) (mixed color : Bool)
    (s : State C) : State C :=
  decodeRequest .text snap (fun shape => .cells (textBuffer cfg snap alt (flashValue flash s) mixed color shape)) s

/-- DEC.TEXT.960 (R297). -/
def execDecText960 (snap : List Byte) (alt : Bool) (flash : FlashArg) (mixed color : Bool) (s : State) :
    Host.Outcome State Fault Refusal :=
  .next (decodeText refConfig snap alt flash mixed color s)

/-- DEC.TEXT.1920 (R297). -/
def execDecText1920 (snap : List Byte) (alt : Bool) (flash : FlashArg) (mixed color : Bool) (s : State) :
    Host.Outcome State Fault Refusal :=
  .next (decodeText refConfig snap alt flash mixed color s)

end Sys2Proof.Machine
end

