-- ==== Sys2Proof/Machine/RejectedSnapshots.lean ====
section
/-!
DEFINITION. A decode call of any decoder, and the meanings of the two rows of rejected snapshots (spec/44_video_common.md
R262, 60_exceptions.md R374).
-/
namespace Sys2Proof.Machine

/-- A decode call (R120): the decoder that the caller chose, with its parameters. -/
def decodeCall {C : Type} (cfg : Config) (call : DecoderCall) (snap : List Byte) (s : State C) : State C :=
  match call with
  | .text alt flash mixed color => decodeText cfg snap alt flash mixed color s
  | .lores color => decodeLoRes cfg snap color s
  | .hires color => decodeHiRes cfg snap color s

/-- DEC.*.0 (R262). -/
def execDecEmpty (call : DecoderCall) (s : State) : Host.Outcome State Fault Refusal :=
  .next (decodeCall refConfig call [] s)

/-- DEC.*.BADLEN (R262). -/
def execDecBadLen (call : DecoderCall) (snap : List Byte) (s : State) : Host.Outcome State Fault Refusal :=
  .next (decodeCall refConfig call snap s)

end Sys2Proof.Machine
end

