-- ==== Sys2Proof/Machine/Speaker.lean ====
section
/-!
DEFINITION. The two addresses of the speaker (spec/41_switch_table.md R172, 43_side_effects.md R247). Each meaning is the bus
operation at the row's address.
-/
namespace Sys2Proof.Machine

/-- SPEAKER.off (R172). -/
def execSpeakerOff (acc : BusAccess) (s : State) : Host.Outcome State Fault Refusal :=
  .next (busOp refConfig 0xC030 acc s)

/-- SPEAKER.on (R172). -/
def execSpeakerOn (acc : BusAccess) (s : State) : Host.Outcome State Fault Refusal :=
  .next (busOp refConfig 0xC031 acc s)

end Sys2Proof.Machine
end

