-- ==== Sys2Proof/Machine/StatusAddresses.lean ====
section
/-!
DEFINITION. The status addresses of the switches without a handler (spec/40_dispatch.md R141): the status byte is refreshed from the
latch, and a read returns it (R150). Each meaning is the bus
operation at the row's address.
-/
namespace Sys2Proof.Machine

/-- BSRBANK2.status (R170). -/
def execBsrBank2Status (acc : BusAccess) (s : State) : Host.Outcome State Fault Refusal :=
  .next (busOp refConfig 0xC011 acc s)

/-- BSRREADRAM.status (R171). -/
def execBsrReadRamStatus (acc : BusAccess) (s : State) : Host.Outcome State Fault Refusal :=
  .next (busOp refConfig 0xC012 acc s)

/-- RAMRD.status (R162). -/
def execRamRdStatus (acc : BusAccess) (s : State) : Host.Outcome State Fault Refusal :=
  .next (busOp refConfig 0xC013 acc s)

/-- RAMWRT.status (R163). -/
def execRamWrtStatus (acc : BusAccess) (s : State) : Host.Outcome State Fault Refusal :=
  .next (busOp refConfig 0xC014 acc s)

/-- INTCXROM.status (R164). -/
def execIntCxRomStatus (acc : BusAccess) (s : State) : Host.Outcome State Fault Refusal :=
  .next (busOp refConfig 0xC015 acc s)

/-- ALTZP.status (R165). -/
def execAltZpStatus (acc : BusAccess) (s : State) : Host.Outcome State Fault Refusal :=
  .next (busOp refConfig 0xC016 acc s)

/-- SLOTC3ROM.status (R166). -/
def execSlotC3RomStatus (acc : BusAccess) (s : State) : Host.Outcome State Fault Refusal :=
  .next (busOp refConfig 0xC017 acc s)

/-- STORE80.status (R161). -/
def execStore80Status (acc : BusAccess) (s : State) : Host.Outcome State Fault Refusal :=
  .next (busOp refConfig 0xC018 acc s)

/-- TEXT.status (R173). -/
def execTextStatus (acc : BusAccess) (s : State) : Host.Outcome State Fault Refusal :=
  .next (busOp refConfig 0xC01A acc s)

/-- MIXED.status (R174). -/
def execMixedStatus (acc : BusAccess) (s : State) : Host.Outcome State Fault Refusal :=
  .next (busOp refConfig 0xC01B acc s)

/-- PAGE2.status (R175). -/
def execPage2Status (acc : BusAccess) (s : State) : Host.Outcome State Fault Refusal :=
  .next (busOp refConfig 0xC01C acc s)

/-- HIRES.status (R176). -/
def execHiresStatus (acc : BusAccess) (s : State) : Host.Outcome State Fault Refusal :=
  .next (busOp refConfig 0xC01D acc s)

/-- ALTCHARSET.status (R168). -/
def execAltCharSetStatus (acc : BusAccess) (s : State) : Host.Outcome State Fault Refusal :=
  .next (busOp refConfig 0xC01E acc s)

/-- COLUMN80.status (R167). -/
def execColumn80Status (acc : BusAccess) (s : State) : Host.Outcome State Fault Refusal :=
  .next (busOp refConfig 0xC01F acc s)

end Sys2Proof.Machine
end

