-- ==== Sys2Proof/Machine/Unmapped.lean ====
section
/-!
DEFINITION. An access to an address that no entry of the table answers (spec/40_dispatch.md R132, 60_exceptions.md R373).
-/
namespace Sys2Proof.Machine

/-- UNMAPPED (R132). -/
def execUnmapped (a : Address) (acc : BusAccess) (s : State) : Host.Outcome State Fault Refusal :=
  .next (busOp refConfig a acc s)

end Sys2Proof.Machine
end

