-- ==== Sys2Proof/Machine/WriteOnlySwitches.lean ====
section
/-!
DEFINITION. The off and on addresses of the eight write-only mode switches (spec/41_switch_table.md R161 to R168): a write sets or
clears the latch, a read only refreshes the status byte. Each meaning is the bus
operation at the row's address.
-/
namespace Sys2Proof.Machine

/-- STORE80.off (R161). -/
def execStore80Off (acc : BusAccess) (s : State) : Host.Outcome State Fault Refusal :=
  .next (busOp refConfig 0xC000 acc s)

/-- STORE80.on (R161). -/
def execStore80On (acc : BusAccess) (s : State) : Host.Outcome State Fault Refusal :=
  .next (busOp refConfig 0xC001 acc s)

/-- RAMRD.off (R162). -/
def execRamRdOff (acc : BusAccess) (s : State) : Host.Outcome State Fault Refusal :=
  .next (busOp refConfig 0xC002 acc s)

/-- RAMRD.on (R162). -/
def execRamRdOn (acc : BusAccess) (s : State) : Host.Outcome State Fault Refusal :=
  .next (busOp refConfig 0xC003 acc s)

/-- RAMWRT.off (R163). -/
def execRamWrtOff (acc : BusAccess) (s : State) : Host.Outcome State Fault Refusal :=
  .next (busOp refConfig 0xC004 acc s)

/-- RAMWRT.on (R163). -/
def execRamWrtOn (acc : BusAccess) (s : State) : Host.Outcome State Fault Refusal :=
  .next (busOp refConfig 0xC005 acc s)

/-- INTCXROM.off (R164). -/
def execIntCxRomOff (acc : BusAccess) (s : State) : Host.Outcome State Fault Refusal :=
  .next (busOp refConfig 0xC006 acc s)

/-- INTCXROM.on (R164). -/
def execIntCxRomOn (acc : BusAccess) (s : State) : Host.Outcome State Fault Refusal :=
  .next (busOp refConfig 0xC007 acc s)

/-- ALTZP.off (R165). -/
def execAltZpOff (acc : BusAccess) (s : State) : Host.Outcome State Fault Refusal :=
  .next (busOp refConfig 0xC008 acc s)

/-- ALTZP.on (R165). -/
def execAltZpOn (acc : BusAccess) (s : State) : Host.Outcome State Fault Refusal :=
  .next (busOp refConfig 0xC009 acc s)

/-- SLOTC3ROM.off (R166). -/
def execSlotC3RomOff (acc : BusAccess) (s : State) : Host.Outcome State Fault Refusal :=
  .next (busOp refConfig 0xC00A acc s)

/-- SLOTC3ROM.on (R166). -/
def execSlotC3RomOn (acc : BusAccess) (s : State) : Host.Outcome State Fault Refusal :=
  .next (busOp refConfig 0xC00B acc s)

/-- COLUMN80.off (R167). -/
def execColumn80Off (acc : BusAccess) (s : State) : Host.Outcome State Fault Refusal :=
  .next (busOp refConfig 0xC00C acc s)

/-- COLUMN80.on (R167). -/
def execColumn80On (acc : BusAccess) (s : State) : Host.Outcome State Fault Refusal :=
  .next (busOp refConfig 0xC00D acc s)

/-- ALTCHARSET.off (R168). -/
def execAltCharSetOff (acc : BusAccess) (s : State) : Host.Outcome State Fault Refusal :=
  .next (busOp refConfig 0xC00E acc s)

/-- ALTCHARSET.on (R168). -/
def execAltCharSetOn (acc : BusAccess) (s : State) : Host.Outcome State Fault Refusal :=
  .next (busOp refConfig 0xC00F acc s)

end Sys2Proof.Machine
end

