-- ==== Sys2Proof/Machine/Dispatch.lean ====
section
/-!
DEFINITION. One arm for each operation: its meaning.
-/
namespace Sys2Proof.Machine

def exec (i : Instr) (s : State) : Host.Outcome State Fault Refusal :=
  match i with
  | .store80Off acc => Sys2Proof.Machine.execStore80Off acc s
  | .store80On acc => Sys2Proof.Machine.execStore80On acc s
  | .ramRdOff acc => Sys2Proof.Machine.execRamRdOff acc s
  | .ramRdOn acc => Sys2Proof.Machine.execRamRdOn acc s
  | .ramWrtOff acc => Sys2Proof.Machine.execRamWrtOff acc s
  | .ramWrtOn acc => Sys2Proof.Machine.execRamWrtOn acc s
  | .intCxRomOff acc => Sys2Proof.Machine.execIntCxRomOff acc s
  | .intCxRomOn acc => Sys2Proof.Machine.execIntCxRomOn acc s
  | .altZpOff acc => Sys2Proof.Machine.execAltZpOff acc s
  | .altZpOn acc => Sys2Proof.Machine.execAltZpOn acc s
  | .slotC3RomOff acc => Sys2Proof.Machine.execSlotC3RomOff acc s
  | .slotC3RomOn acc => Sys2Proof.Machine.execSlotC3RomOn acc s
  | .column80Off acc => Sys2Proof.Machine.execColumn80Off acc s
  | .column80On acc => Sys2Proof.Machine.execColumn80On acc s
  | .altCharSetOff acc => Sys2Proof.Machine.execAltCharSetOff acc s
  | .altCharSetOn acc => Sys2Proof.Machine.execAltCharSetOn acc s
  | .kbrdStrobeStatus acc => Sys2Proof.Machine.execKbrdStrobeStatus acc s
  | .bsrBank2Status acc => Sys2Proof.Machine.execBsrBank2Status acc s
  | .bsrReadRamStatus acc => Sys2Proof.Machine.execBsrReadRamStatus acc s
  | .ramRdStatus acc => Sys2Proof.Machine.execRamRdStatus acc s
  | .ramWrtStatus acc => Sys2Proof.Machine.execRamWrtStatus acc s
  | .intCxRomStatus acc => Sys2Proof.Machine.execIntCxRomStatus acc s
  | .altZpStatus acc => Sys2Proof.Machine.execAltZpStatus acc s
  | .slotC3RomStatus acc => Sys2Proof.Machine.execSlotC3RomStatus acc s
  | .store80Status acc => Sys2Proof.Machine.execStore80Status acc s
  | .textStatus acc => Sys2Proof.Machine.execTextStatus acc s
  | .mixedStatus acc => Sys2Proof.Machine.execMixedStatus acc s
  | .page2Status acc => Sys2Proof.Machine.execPage2Status acc s
  | .hiresStatus acc => Sys2Proof.Machine.execHiresStatus acc s
  | .altCharSetStatus acc => Sys2Proof.Machine.execAltCharSetStatus acc s
  | .column80Status acc => Sys2Proof.Machine.execColumn80Status acc s
  | .speakerOff acc => Sys2Proof.Machine.execSpeakerOff acc s
  | .speakerOn acc => Sys2Proof.Machine.execSpeakerOn acc s
  | .textOff acc => Sys2Proof.Machine.execTextOff acc s
  | .textOn acc => Sys2Proof.Machine.execTextOn acc s
  | .mixedOff acc => Sys2Proof.Machine.execMixedOff acc s
  | .mixedOn acc => Sys2Proof.Machine.execMixedOn acc s
  | .page2Off acc => Sys2Proof.Machine.execPage2Off acc s
  | .page2On acc => Sys2Proof.Machine.execPage2On acc s
  | .hiresOff acc => Sys2Proof.Machine.execHiresOff acc s
  | .hiresOn acc => Sys2Proof.Machine.execHiresOn acc s
  | .pb0Status acc => Sys2Proof.Machine.execPb0Status acc s
  | .pb1Status acc => Sys2Proof.Machine.execPb1Status acc s
  | .pb2Status acc => Sys2Proof.Machine.execPb2Status acc s
  | .paddle0Status acc => Sys2Proof.Machine.execPaddle0Status acc s
  | .paddle1Status acc => Sys2Proof.Machine.execPaddle1Status acc s
  | .paddle2Status acc => Sys2Proof.Machine.execPaddle2Status acc s
  | .paddle3Status acc => Sys2Proof.Machine.execPaddle3Status acc s
  | .ptrigStatus acc => Sys2Proof.Machine.execPtrigStatus acc s
  | .bsrSel0Off acc => Sys2Proof.Machine.execBsrSel0Off acc s
  | .bsrSel0On acc => Sys2Proof.Machine.execBsrSel0On acc s
  | .bsrSel1Off acc => Sys2Proof.Machine.execBsrSel1Off acc s
  | .bsrSel1On acc => Sys2Proof.Machine.execBsrSel1On acc s
  | .bsrSel2Off acc => Sys2Proof.Machine.execBsrSel2Off acc s
  | .bsrSel2On acc => Sys2Proof.Machine.execBsrSel2On acc s
  | .bsrSel3Off acc => Sys2Proof.Machine.execBsrSel3Off acc s
  | .bsrSel3On acc => Sys2Proof.Machine.execBsrSel3On acc s
  | .bsrSel4Off acc => Sys2Proof.Machine.execBsrSel4Off acc s
  | .bsrSel4On acc => Sys2Proof.Machine.execBsrSel4On acc s
  | .bsrSel5Off acc => Sys2Proof.Machine.execBsrSel5Off acc s
  | .bsrSel5On acc => Sys2Proof.Machine.execBsrSel5On acc s
  | .bsrSel6Off acc => Sys2Proof.Machine.execBsrSel6Off acc s
  | .bsrSel6On acc => Sys2Proof.Machine.execBsrSel6On acc s
  | .bsrSel7Off acc => Sys2Proof.Machine.execBsrSel7Off acc s
  | .bsrSel7On acc => Sys2Proof.Machine.execBsrSel7On acc s
  | .drvSm0Off acc => Sys2Proof.Machine.execDrvSm0Off acc s
  | .drvSm0On acc => Sys2Proof.Machine.execDrvSm0On acc s
  | .drvSm1Off acc => Sys2Proof.Machine.execDrvSm1Off acc s
  | .drvSm1On acc => Sys2Proof.Machine.execDrvSm1On acc s
  | .drvSm2Off acc => Sys2Proof.Machine.execDrvSm2Off acc s
  | .drvSm2On acc => Sys2Proof.Machine.execDrvSm2On acc s
  | .drvSm3Off acc => Sys2Proof.Machine.execDrvSm3Off acc s
  | .drvSm3On acc => Sys2Proof.Machine.execDrvSm3On acc s
  | .unmapped address access => Sys2Proof.Machine.execUnmapped address access s
  | .decText960 snapshot alt flash mixed color => Sys2Proof.Machine.execDecText960 snapshot alt flash mixed color s
  | .decText1920 snapshot alt flash mixed color => Sys2Proof.Machine.execDecText1920 snapshot alt flash mixed color s
  | .decLores800 snapshot color => Sys2Proof.Machine.execDecLores800 snapshot color s
  | .decLores960 snapshot color => Sys2Proof.Machine.execDecLores960 snapshot color s
  | .decLores1600 snapshot color => Sys2Proof.Machine.execDecLores1600 snapshot color s
  | .decLores1920 snapshot color => Sys2Proof.Machine.execDecLores1920 snapshot color s
  | .decHires6400 snapshot color => Sys2Proof.Machine.execDecHires6400 snapshot color s
  | .decHires7680 snapshot color => Sys2Proof.Machine.execDecHires7680 snapshot color s
  | .decHires12800 snapshot color => Sys2Proof.Machine.execDecHires12800 snapshot color s
  | .decHires15360 snapshot color => Sys2Proof.Machine.execDecHires15360 snapshot color s
  | .decEmpty call => Sys2Proof.Machine.execDecEmpty call s
  | .decBadLen call snapshot => Sys2Proof.Machine.execDecBadLen call snapshot s
  | .reset => Sys2Proof.Machine.execReset s
  | .tick => Sys2Proof.Machine.execTick s

end Sys2Proof.Machine
end

