-- ==== Sys2Proof/Machine/Step.lean ====
section
/-!
DEFINITION. The step: the next line of the pending trace is taken off, decoded and run (spec/30_encoding.md R120,
20_memory.md R80). With no line pending nothing acts on the block and all of its state survives unchanged
(60_exceptions.md R390; log 1).
-/
namespace Sys2Proof.Machine

/-- The state with a trace line as the next one to run. -/
def State.present {C : Type} (s : State C) (line : TraceLine C) : State C := { s with pending := line :: s.pending }

/-- One step. -/
def step (s : State) : Host.Outcome State Fault Refusal :=
  match s.pending with
  | [] => .next s
  | line :: rest => exec (decode line) { s with pending := rest }

/-- The state whose very next step runs the operation that a word of the opcode table stands for; a word that stands for
none leaves the state as it is. -/
def State.withFetchWord (s : State) (nbits w : Nat) : State :=
  match tableLine nbits w with
  | some line => s.present line
  | none => s

end Sys2Proof.Machine
end

