-- ==== Sys2Proof/Machine/DisplayPlan.lean ====
section
/-!
DEFINITION. What the block's latches tell its callers (spec/44_video_common.md R280, R281, 10_state.md R37): the decoder
that the next refresh runs, as the contract the callers are assumed to follow, and the parts of the state that an
external save file captures (20_memory.md R86). No step of the block reads either.
-/
namespace Sys2Proof.Machine

variable {C : Type}

/-- What a refresh draws (R280): the graphics decoder and its lines, if any, and the first text row, if any. -/
structure Plan where
  graphics  : Option (DecoderKind × Nat)
  textStart : Option Nat
  deriving DecidableEq, Repr

/-- `DisplayPlan(S)` (R280): lines are character rows for lo-res and pixel lines for hi-res. In a table without
`TEXT`, `HIRES` or `MIXED` the missing latch reads 0 (log 32). -/
def displayPlan (s : State C) : Plan :=
  if s.latch .text then ⟨none, some 0⟩
  else
    match s.latch .hires, s.latch .mixed with
    | false, false => ⟨some (.lores, 24), none⟩
    | false, true => ⟨some (.lores, 20), some 20⟩
    | true, false => ⟨some (.hires, 192), none⟩
    | true, true => ⟨some (.hires, 160), some 20⟩

/-- The snapshot lengths that a plan's graphics decoder may be handed, at 40 and at 80 bytes a line (R280). -/
def planLengths (p : Plan) : List Nat :=
  match p.graphics with
  | none => []
  | some (_, lines) => [lines * 40, lines * 80]

/-- What a save file captures of the block (R86). -/
structure SaveState where
  latches    : List (SwitchName × Bool)
  banked     : Vector Bool 8
  flashCount : Nat
  flashPhase : Bool
  deriving DecidableEq, Repr

/-- The captured parts of a state. -/
def saveState (s : State C) : SaveState := ⟨s.latches, s.banked, s.flashCount, s.flashPhase⟩

end Sys2Proof.Machine
end

