-- ==== Sys2Proof/Machine/Construction.lean ====
section
/-!
DEFINITION. Construction (spec/70_reset_and_hazards.md R400 to R403): the checks R410 to R415 on a configuration, and the
block that a configuration gives, or the refusal. The checks run rule by rule over the entries in table order and report
the first violation (60_exceptions.md R376; logs 19 and 30).
-/
namespace Sys2Proof.Machine

/-- R410: the entry has an off address or a status address. -/
def hasAddress (e : SwitchEntry) : Bool := e.offAddress.isSome || e.statusAddress.isSome

/-- R411: the address lies in `0xC000 .. 0xC0FF`. -/
def routed (a : Address) : Bool := Memory.inRegion a.toNat

/-- R411 for an entry. -/
def addressesRouted (e : SwitchEntry) : Bool := (entryAddresses e).all routed

/-- R412: the on address is present exactly when the off address is, and is the off address plus 1. -/
def onAdjacent (e : SwitchEntry) : Bool :=
  match e.offAddress, e.onAddress with
  | none, none => true
  | some off, some on => on.toNat == off.toNat + 1
  | _, _ => false

/-- R413 for an entry: each of its addresses occurs once among all present addresses of the table. Of two entries that
share an address both fail, and R372 does not say which is recorded: the model records the one that stands first in the
table (DESIGN CHOICE, log 30). -/
def addressesUnique (table : List SwitchEntry) (e : SwitchEntry) : Bool :=
  (entryAddresses e).all fun a => (table.flatMap entryAddresses).count a == 1

/-- R414 for an entry: its handler id, if any, is bound: `BANKEDRAM` by the block itself, every other id by registration
(R401). R6 says 'registered once' and no check of R410 to R415 is about a second registration: an id that the list repeats
counts as registered once, and `BANKEDRAM` may stand in the list (DESIGN CHOICE, log 31). -/
def handlerBound (handlers : List HandlerId) (e : SwitchEntry) : Bool :=
  match e.handler with
  | none => true
  | some .bankedRam => true
  | some h => handlers.contains h

/-- R415 for an entry: its name is no other entry's. Of two entries of one name both fail, and the model records the one
that stands first in the table (DESIGN CHOICE, log 30). -/
def nameUnique (table : List SwitchEntry) (e : SwitchEntry) : Bool := (table.map (·.name)).count e.name == 1

/-- The table is a permutation of `0 .. 15` (R415). -/
def isPermutation (table : List Nat) : Bool :=
  table.length == 16 && (List.range 16).all fun n => table.contains n

/-- R415: the constraint on one parameter. R415 names no white entry of `PAL_HIRES_COLOR`; R6 asks for one and does not
say where, so any place does (log 19). -/
def parameterOk (cfg : Config) : Parameter → Bool
  | .sentSet => statusFlag cfg.sentSet
  | .sentClear => !statusFlag cfg.sentClear
  | .flashPeriod => decide (1 ≤ cfg.flashPeriod)
  | .loresDblPerm => isPermutation cfg.loresDblPerm
  | .dhgrPerm => isPermutation cfg.dhgrPerm
  | .palLoresColor =>
    cfg.palLoresColor.length == 16 && cfg.palLoresColor[0]? == some black && cfg.palLoresColor[15]? == some white
      && cfg.palLoresColor[cfg.dhgrPerm.getD 0 0]? == some black
  | .palHiresColor =>
    cfg.palHiresColor.length == 8 && cfg.palHiresColor[0]? == some black && cfg.palHiresColor[4]? == some black
      && cfg.palHiresColor.contains white

/-- The parameters in the order in which R415 first names each. R376 gives no order inside R415; R415 names
`PAL_HIRES_COLOR[0]` before `PAL_LORES_COLOR[15]`, and the model checks all of one palette before the other (DESIGN CHOICE,
log 30). The recorded rule is 415 either way. -/
def parameterOrder : List Parameter :=
  [.sentSet, .sentClear, .flashPeriod, .loresDblPerm, .dhgrPerm, .palLoresColor, .palHiresColor]

/-- The first entry, in table order (R376), that fails a check. Where a fault is shared by several entries, the spec does
not say which is recorded, and it is this one (DESIGN CHOICE, log 30). -/
def firstEntry (table : List SwitchEntry) (check : SwitchEntry → Bool) (defect : SwitchName → ConstructionDefect) :
    Option ConstructionDefect :=
  (table.find? fun e => !check e).map fun e => defect e.name

/-- The first violation (R376): R410 to R414 over the entries, then R415, the parameters (`parameterOrder`, log 30) before
the entry names. -/
def firstDefect (cfg : Config) : Option ConstructionDefect :=
  (firstEntry cfg.table hasAddress .noAddress).orElse fun _ =>
  (firstEntry cfg.table addressesRouted .addressOutOfRange).orElse fun _ =>
  (firstEntry cfg.table onAdjacent .onNotAdjacent).orElse fun _ =>
  (firstEntry cfg.table (addressesUnique cfg.table) .addressRepeated).orElse fun _ =>
  (firstEntry cfg.table (handlerBound cfg.handlers) .handlerUnbound).orElse fun _ =>
  ((parameterOrder.find? fun p => !parameterOk cfg p).map .badParameter).orElse fun _ =>
  firstEntry cfg.table (nameUnique cfg.table) .nameRepeated

/-- The rule that a defect violates (R372). -/
def ConstructionDefect.rule : ConstructionDefect → Nat
  | .noAddress _ => 410
  | .addressOutOfRange _ => 411
  | .onNotAdjacent _ => 412
  | .addressRepeated _ => 413
  | .handlerUnbound _ => 414
  | .nameRepeated _ | .badParameter _ => 415

/-- The name of the entry at fault (R372); none where the defect is no entry's. -/
def ConstructionDefect.entry : ConstructionDefect → Option SwitchName
  | .noAddress n | .addressOutOfRange n | .onNotAdjacent n | .addressRepeated n | .handlerUnbound n
  | .nameRepeated n => some n
  | .badParameter _ => none

/-- The code of `ConstructionDefect` (R372). -/
def ConstructionDefect.code (_ : ConstructionDefect) : Nat := 3

/-- A configuration that construction accepts (R410 to R415). -/
abbrev wellFormedConfig (cfg : Config) : Prop := firstDefect cfg = none

/-- Construction (R400): the block in its reset state, or `ConstructionDefect` and no block (R375). -/
def construct {C : Type} (cfg : Config) : Host.Outcome (State C) Fault Refusal :=
  match firstDefect cfg with
  | some d => .refused (.constructionDefect d)
  | none => .next (hardReset cfg State.blank)

end Sys2Proof.Machine
end

