-- ==== Sys2Proof/Machine/Program.lean ====
section
/-!
DEFINITION. A program with its configuration (spec/30_encoding.md R120: "a finite trace together with the configuration of
00_scope.md rule R6 and a start state"): what a line of a trace does under any configuration, a step under any
configuration, and the run of a program with its results. `exec` and `step` are these under the configuration of this
hardware, whose switch table the rows of the opcode table list; under another one the address of a bus line is looked up in
that configuration's table (log 28).
-/
namespace Sys2Proof.Machine

variable {C : Type}

/-- The state after one line of a trace (R120). -/
def runLine (cfg : Config) (line : TraceLine C) (s : State C) : State C :=
  match line with
  | .bus a acc => busOp cfg a acc s
  | .dec call snap => decodeCall cfg call snap s
  | .reset => hardReset cfg s
  | .tick => flashTick cfg s

/-- The state after a trace: its lines from top to bottom, each one atomic step (R120, 20_memory.md R80). -/
def runTrace (cfg : Config) (lines : List (TraceLine C)) (s : State C) : State C :=
  lines.foldl (fun s line => runLine cfg line s) s

/-- One step of a block with any configuration: the next line of the pending trace (log 1). -/
def stepUnder (cfg : Config) (s : State C) : Host.Outcome (State C) Fault Refusal :=
  match s.pending with
  | [] => .next s
  | line :: rest => .next (runLine cfg line { s with pending := rest })

/-- A program (R120). -/
structure Program (C : Type := Cycle) where
  config : Config
  start  : State C
  lines  : List (TraceLine C)
  deriving DecidableEq, Repr

/-- The result of a program (R120): the end state, the bytes returned by its `RD` lines, the handler invocations, the
outputs of its `DEC` lines. -/
structure ProgramResult (C : Type := Cycle) where
  endState : State C
  returned : List Byte
  invoked  : List (Invocation C)
  outputs  : List DecodeOutput
  deriving DecidableEq, Repr

/-- What a run from one state to another appended to the records. -/
def resultOf (s t : State C) : ProgramResult C where
  endState := t
  returned := t.returned.drop s.returned.length
  invoked  := t.invoked.drop s.invoked.length
  outputs  := t.outputs.drop s.outputs.length

/-- The run of a program (R120). A configuration that construction refuses gives no block to run it (R375, R403). -/
def Program.run (p : Program C) : Host.Outcome (ProgramResult C) Fault Refusal :=
  match firstDefect p.config with
  | some d => .refused (.constructionDefect d)
  | none => .next (resultOf p.start (runTrace p.config p.lines p.start))

/-- The program that runs a trace on a block just constructed and reset (R403). -/
def Program.fromReset (cfg : Config) (lines : List (TraceLine C)) : Program C := ⟨cfg, hardReset cfg State.blank, lines⟩

end Sys2Proof.Machine
end

