-- ==== Sys2Proof/Safety.lean ====
section
/-!
DEFINITION. What a sound state of the block is: the invariants that spec/10_state.md states or that follow from its
writer lists, over a configuration. They rule out only states that no run from construction reaches.
-/
namespace Sys2Proof.Machine

variable {C : Type}

/-- The core-owned addresses of a table, rising (R33). -/
def coreOwnedAddresses (table : List SwitchEntry) : List Nat :=
  ((List.range 256).map fun i => Memory.base + i).filter fun k => coreOwned table (BitVec.ofNat 16 k)

/-- `INV-STATUS` (R33): every core-owned byte is the sentinel of its latch. -/
def StatusAgrees (cfg : Config) (s : State C) : Prop :=
  ∀ e ∈ cfg.table, e.handler = none → ∀ a, e.statusAddress = some a →
    s.status.read? a.toNat = some (sentinel cfg (s.latch e.name))

/-- The derived latches are those of some fragment, or those of reset (R225, R227(f)). -/
def BankedLegal (v : Vector Bool 8) : Prop := v = resetBanked ∨ ∃ frag, v = bankVector frag

/-- The soundness of a state under a configuration. -/
structure State.Sound (cfg : Config) (s : State C) : Prop where
  /-- The status region has its canonical form. -/
  canonical : Memory.wf s.status = true
  /-- It lists exactly the core-owned addresses (R33, R34). -/
  lists : s.status.map Prod.fst = coreOwnedAddresses cfg.table
  /-- `INV-STATUS` (R33). -/
  agrees : StatusAgrees cfg s
  /-- One latch for each entry of the table, in its order (R24, R25). -/
  latchNames : s.latches.map Prod.fst = cfg.table.map SwitchEntry.name
  /-- `FLASHCNT` is in `0 .. FLASH_PERIOD - 1` (R36). -/
  flashBound : s.flashCount < cfg.flashPeriod
  /-- `B` is all 0 or the vector of a fragment (R227(a), R227(f)). -/
  banked : BankedLegal s.banked
  /-- `S[BSRBANK2] = B[0] or B[1] or B[2] or B[3]` (R227(b)). -/
  bankTwo : s.latch .bsrBank2 = (s.banked[0] || s.banked[1] || s.banked[2] || s.banked[3])
  /-- `S[BSRREADRAM] = B[0] or B[3] or B[4] or B[7]` (R227(c)). -/
  readRam : s.latch .bsrReadRam = (s.banked[0] || s.banked[3] || s.banked[4] || s.banked[7])

/-- What no bus access touches: the flash counter and phase, the rest of the trace, the outputs of the decode calls
(R142). -/
structure VideoKept (s t : State C) : Prop where
  flashCount : t.flashCount = s.flashCount
  flashPhase : t.flashPhase = s.flashPhase
  pending    : t.pending = s.pending
  outputs    : t.outputs = s.outputs

/-- No external handler was called: handler-owned states, call record and outbound events are as before. -/
structure NoCall (s t : State C) : Prop where
  peripherals : t.peripherals = s.peripherals
  invoked     : t.invoked = s.invoked
  outbound    : t.outbound = s.outbound

/-- What no decode call, no tick and no reset touches: the returned bytes, the handler side, the rest of the trace. -/
structure BusSideKept (s t : State C) : Prop extends NoCall s t where
  returned : t.returned = s.returned
  pending  : t.pending = s.pending

/-- Every latch outside `p` reads as before. -/
def LatchesKeptBut (p : SwitchName → Prop) (s t : State C) : Prop := ∀ n, ¬ p n → t.latch n = s.latch n

/-- Every address outside `p` of the status region reads as before. -/
def StatusKeptBut (p : Nat → Prop) (s t : State C) : Prop := ∀ k, ¬ p k → t.status.read? k = s.status.read? k

/-- A read returns one byte, of which `p` holds; a write returns none. -/
def ReadReturns (acc : BusAccess C) (p : Byte → Prop) (s t : State C) : Prop :=
  match acc with
  | .rd _ => ∃ b, p b ∧ t.returned = s.returned ++ [b]
  | .wr _ _ => t.returned = s.returned

/-- The latches that the call of a handler may change (R243(b), R226): its own entries', for the BankedRAM decode the
two coarse ones. -/
def HandlerMayWrite (cfg : Config) (h : HandlerId) (n : SwitchName) : Prop :=
  match h with
  | .bankedRam => n = .bsrBank2 ∨ n = .bsrReadRam
  | _ => ∃ e ∈ ownEntries cfg.table h, e.name = n

/-- The address is one of a switch whose handler is not the block's own. -/
def CallsExternal (table : List SwitchEntry) (a : Address) : Prop :=
  ∃ e role h, lookup table a = some (e, role) ∧ e.handler = some h ∧ h ≠ .bankedRam

/-- What an event records but for the cycle count (R372). -/
def Event.withoutCycle : Event C → Event Unit
  | .unknownSoftSwitch a k _ => .unknownSoftSwitch a k ()
  | .badLength d n => .badLength d n

/-- Two states agree on what the block itself owns, that is, outside the footprint of the external handlers (R243) and the
bytes that peripherals own (R34): the latches that no external handler may write, `B`, `STATUS`, the video side, the events
of the log but for the cycle counts that they record (R385), how many bytes were returned. -/
structure CoreAgrees (cfg : Config) (t t' : State C) : Prop where
  latches  : ∀ n, (∀ h, h ≠ .bankedRam → ¬ HandlerMayWrite cfg h n) → t.latch n = t'.latch n
  banked   : t.banked = t'.banked
  status   : t.status = t'.status
  video    : VideoKept t' t
  events   : t.log.map Event.withoutCycle = t'.log.map Event.withoutCycle
  returned : t.returned.length = t'.returned.length

/-- The events that a handler handed off in one call (R243, R247): one click at the cycle count for the speaker, any events
of its own for another. -/
def HandsOff (h : HandlerId) (cyc : C) (s t : State C) : Prop :=
  match h with
  | .speaker => t.outbound = s.outbound ++ [.click cyc]
  | h => ∃ codes : List Nat, t.outbound = s.outbound ++ codes.map (.emitted h)

/-- A step ends in a next state: the run of the block goes on (R152, R378). -/
def Completes (s : State) : Prop := ∃ t, step s = .next t

end Sys2Proof.Machine
end

