-- ==== Sys2Proof/Certificates/Slice0/Obligations.lean ====
section
/-!
DEFINITION. The statements about the model, for the provers. Each docstring names the sentence of spec/ that the statement
formalises, or the decision of the spec (spec/92_eei_decisions.md) and the log entry that it rests on.
-/
open Sys2Proof Sys2Proof.Machine

namespace Sys2Proof.Statements

/-- A row that sets or clears a latch: its constructor, the switch, the value, the status address. -/
structure SwitchRow where
  build  : BusAccess → Instr
  name   : SwitchName
  value  : Bool
  status : Address

/-- A row that reads a latch or calls a handler: its constructor, the switch, its address. -/
structure AddressRow where
  build   : BusAccess → Instr
  name    : SwitchName
  address : Address

/-- A BankedRAM row (R228): its constructor, the index of the one latch set, the two coarse bits. -/
structure BankRow where
  build   : BusAccess → Instr
  index   : Nat
  bankTwo : Bool
  readRam : Bool

/-- R161 to R168. -/
def writeOnlySwitchRows : List SwitchRow :=
  [ ⟨.store80Off, .store80, false, 0xC018⟩,
    ⟨.store80On, .store80, true, 0xC018⟩,
    ⟨.ramRdOff, .ramRd, false, 0xC013⟩,
    ⟨.ramRdOn, .ramRd, true, 0xC013⟩,
    ⟨.ramWrtOff, .ramWrt, false, 0xC014⟩,
    ⟨.ramWrtOn, .ramWrt, true, 0xC014⟩,
    ⟨.intCxRomOff, .intCxRom, false, 0xC015⟩,
    ⟨.intCxRomOn, .intCxRom, true, 0xC015⟩,
    ⟨.altZpOff, .altZp, false, 0xC016⟩,
    ⟨.altZpOn, .altZp, true, 0xC016⟩,
    ⟨.slotC3RomOff, .slotC3Rom, false, 0xC017⟩,
    ⟨.slotC3RomOn, .slotC3Rom, true, 0xC017⟩,
    ⟨.column80Off, .column80, false, 0xC01F⟩,
    ⟨.column80On, .column80, true, 0xC01F⟩,
    ⟨.altCharSetOff, .altCharSet, false, 0xC01E⟩,
    ⟨.altCharSetOn, .altCharSet, true, 0xC01E⟩ ]

/-- R173 to R176. -/
def displaySwitchRows : List SwitchRow :=
  [ ⟨.textOff, .text, false, 0xC01A⟩,
    ⟨.textOn, .text, true, 0xC01A⟩,
    ⟨.mixedOff, .mixed, false, 0xC01B⟩,
    ⟨.mixedOn, .mixed, true, 0xC01B⟩,
    ⟨.page2Off, .page2, false, 0xC01C⟩,
    ⟨.page2On, .page2, true, 0xC01C⟩,
    ⟨.hiresOff, .hires, false, 0xC01D⟩,
    ⟨.hiresOn, .hires, true, 0xC01D⟩ ]

/-- The status addresses without a handler. -/
def statusAddressRows : List AddressRow :=
  [ ⟨.bsrBank2Status, .bsrBank2, 0xC011⟩,
    ⟨.bsrReadRamStatus, .bsrReadRam, 0xC012⟩,
    ⟨.ramRdStatus, .ramRd, 0xC013⟩,
    ⟨.ramWrtStatus, .ramWrt, 0xC014⟩,
    ⟨.intCxRomStatus, .intCxRom, 0xC015⟩,
    ⟨.altZpStatus, .altZp, 0xC016⟩,
    ⟨.slotC3RomStatus, .slotC3Rom, 0xC017⟩,
    ⟨.store80Status, .store80, 0xC018⟩,
    ⟨.textStatus, .text, 0xC01A⟩,
    ⟨.mixedStatus, .mixed, 0xC01B⟩,
    ⟨.page2Status, .page2, 0xC01C⟩,
    ⟨.hiresStatus, .hires, 0xC01D⟩,
    ⟨.altCharSetStatus, .altCharSet, 0xC01E⟩,
    ⟨.column80Status, .column80, 0xC01F⟩ ]

/-- R177 to R184: the status addresses of the joystick handler. -/
def joystickAddresses : List AddressRow :=
  [ ⟨.pb0Status, .pb0, 0xC061⟩,
    ⟨.pb1Status, .pb1, 0xC062⟩,
    ⟨.pb2Status, .pb2, 0xC063⟩,
    ⟨.paddle0Status, .paddle0, 0xC064⟩,
    ⟨.paddle1Status, .paddle1, 0xC065⟩,
    ⟨.paddle2Status, .paddle2, 0xC066⟩,
    ⟨.paddle3Status, .paddle3, 0xC067⟩,
    ⟨.ptrigStatus, .ptrig, 0xC070⟩ ]

/-- R172. -/
def speakerRows : List AddressRow :=
  [ ⟨.speakerOff, .speaker, 0xC030⟩,
    ⟨.speakerOn, .speaker, 0xC031⟩ ]

/-- R228, row by row. -/
def bankAddresses : List BankRow :=
  [ ⟨.bsrSel0Off, 0, true, true⟩,
    ⟨.bsrSel0On, 1, true, false⟩,
    ⟨.bsrSel1Off, 2, true, false⟩,
    ⟨.bsrSel1On, 3, true, true⟩,
    ⟨.bsrSel2Off, 0, true, true⟩,
    ⟨.bsrSel2On, 1, true, false⟩,
    ⟨.bsrSel3Off, 2, true, false⟩,
    ⟨.bsrSel3On, 3, true, true⟩,
    ⟨.bsrSel4Off, 4, false, true⟩,
    ⟨.bsrSel4On, 5, false, false⟩,
    ⟨.bsrSel5Off, 6, false, false⟩,
    ⟨.bsrSel5On, 7, false, true⟩,
    ⟨.bsrSel6Off, 4, false, true⟩,
    ⟨.bsrSel6On, 5, false, false⟩,
    ⟨.bsrSel7Off, 6, false, false⟩,
    ⟨.bsrSel7On, 7, false, true⟩ ]

/-- R193 to R196 (no status address). -/
def diskAddresses : List ((BusAccess → Instr) × SwitchName × Bool) :=
  [ (.drvSm0Off, .drvSm0, false),
    (.drvSm0On, .drvSm0, true),
    (.drvSm1Off, .drvSm1, false),
    (.drvSm1On, .drvSm1, true),
    (.drvSm2Off, .drvSm2, false),
    (.drvSm2On, .drvSm2, true),
    (.drvSm3Off, .drvSm3, false),
    (.drvSm3On, .drvSm3, true) ]

/-- The number of consecutive set columns directly before column `k` of a hi-res line. -/
def setBefore (line : List Byte) : Nat → Nat
  | 0 => 0
  | k + 1 => if hiresBit line k then setBefore line k + 1 else 0

/-- Column `k` emits a run: its bit is set and it is not the second column of a white pair (R328, R333), that is, an even
number of set columns stands directly before it. -/
def emits (line : List Byte) (k : Nat) : Bool := hiresBit line k && setBefore line k % 2 == 0

/-- The first pixel of the run of column `k` (R330, R331, R334): only a white pair in colour leads by one pixel. -/
def runStart (color : Bool) (line : List Byte) (k : Nat) : Int :=
  (2 * k + hiresHigh line k : Int) - (if color ∧ hiresNextBit line k then 1 else 0)

/-- The last pixel of the run of column `k`. -/
def runEnd (line : List Byte) (k : Nat) : Int := 2 * k + hiresHigh line k + 3

/-- The index that the run of column `k` writes (R327, R334). -/
def runIndex (color : Bool) (line : List Byte) (k : Nat) : Nat :=
  if color then
    if hiresNextBit line k then 4 * hiresHigh line k + 3
    else if k % 2 = 0 then 4 * hiresHigh line k + 2 else 4 * hiresHigh line k + 1
  else 3

/-- The column whose run pixel `x` shows: the last emitting one whose run covers it (R332). -/
def coveringColumn (color : Bool) (line : List Byte) (x : Nat) : Option Nat :=
  (List.range 280).reverse.find? fun k =>
    emits line k && decide (runStart color line k ≤ x) && decide ((x : Int) ≤ runEnd line k)

/-- The hi-res index of pixel `x`, read off the runs instead of written by a walk. -/
def hiresPixelSpec (color : Bool) (line : List Byte) (x : Nat) : Nat :=
  match coveringColumn color line x with
  | some k => runIndex color line k
  | none => 0

/-- The four bytes of pixel `(y, x)` of a buffer of width 560 (R63). -/
def pixelAt (buf : PixelBuffer) (y x : Nat) : List Byte := (buf.bytes.drop (4 * (560 * y + x))).take 4

/-- A buffer of `height` lines of 560 pixels, each showing the palette's entry of an index, alpha 255 (R63, R275). -/
def Shows (buf : PixelBuffer) (height : Nat) (palette : List Rgb) (index : Nat → Nat → Nat) : Prop :=
  buf.height = height ∧ buf.bytes.length = 4 * 560 * height ∧
    ∀ y < height, ∀ x < 560, ∃ c, palette[index y x]? = some c ∧ pixelAt buf y x = [c.red, c.green, c.blue, 255]

/-- The lo-res index of pixel `(y, x)` (R311, R312): the nibble of its block, through the permutation in an even column of
a double-resolution snapshot. -/
def loresPixelSpec (snap : List Byte) (charsPerLine : Nat) (y x : Nat) : Nat :=
  let column := x / (560 / charsPerLine)
  let v := (byteAt snap (y / 8 * charsPerLine + column)).toNat
  let nibble := if y % 8 < 4 then v % 16 else v / 16
  if charsPerLine = 80 ∧ column % 2 = 0 then 2 * nibble % 16 + nibble / 8 else nibble

/-- The double hi-res index of pixel `x` of a line (R353, R354, R356). -/
def dhiresPixelSpec (color : Bool) (line : List Byte) (x : Nat) : Nat :=
  if color then 2 * dhiresWindow line x % 16 + dhiresWindow line x / 8
  else if streamBit line x then 15 else 0

/-- The `inverse` bit of a byte, written out (R293, R294). -/
def inverseSpec (v : Byte) (alt flash : Bool) : Bool :=
  decide (v.toNat ≤ 63) || (decide (64 ≤ v.toNat) && decide (v.toNat ≤ 127) && !alt && flash)
    || (decide (96 ≤ v.toNat) && decide (v.toNat ≤ 127) && alt)

end Sys2Proof.Statements

open Sys2Proof.Statements

/-! ### The trace, the decoder and the encoder -/

/-- One step runs the next line of the trace: the line is taken off and the operation it decodes to is run on the rest;
with no line left the state survives unchanged (R120, R390; the model's choice of a pending trace is log 1). -/
def Obligations.StepRunsTheNextLine : Prop :=
  (∀ (s : State) (line : TraceLine) (rest : List TraceLine), s.pending = line :: rest →
    step s = exec (decode line) { s with pending := rest } ∧ (decode line).wellFormed = true) ∧
  ∀ s : State, s.pending = [] → step s = .next s

/-- Decode of encode gives every well-formed operation back, with every operand (R91, R100). The number of a bus operation
is `kind * 0x10000 + address`, 17 bits, and gives back its kind and address, with the data byte and the cycle count beside
it; every number of 17 bits is that of one bus operation, and no larger number is one (R122; decision D24, the line as syntax
is log 2). -/
def Obligations.DecodeOfEncodeIsTheOperation : Prop :=
  (∀ i : Instr, i.wellFormed = true → decode (encode i) = i) ∧
  (∀ (a : Address) (data : Byte) (cyc : Cycle),
    busNumber .rd a = a.toNat ∧ busNumber .wr a = 0x10000 + a.toNat ∧
    TraceLine.ofNumber (busNumber .rd a) data cyc = .ok (.bus a (.rd cyc)) ∧
    TraceLine.ofNumber (busNumber .wr a) data cyc = .ok (.bus a (.wr data cyc))) ∧
  ∀ (n : Nat) (data : Byte) (cyc : Cycle),
    if n < 0x20000 then ∃ a acc, TraceLine.ofNumber n data cyc = .ok (.bus a acc) ∧ busNumber acc.kind a = n
    else TraceLine.ofNumber n data cyc = .error (.notABusNumber n)

/-- Every trace line has one meaning: encode of decode gives the line back, and what is decoded is well-formed. -/
def Obligations.EncodeOfDecodeIsTheLine : Prop :=
  ∀ line : TraceLine, encode (decode line) = line ∧ (decode line).wellFormed = true

/-- The decoder selects the row of a switch and role exactly when an entry of the table has the address in that role, and
this is what `Lookup` finds (R91, R131; the table is decision D6, log 9). -/
def Obligations.DecodedRowIsTheLookup : Prop :=
  ∀ (a : Address) (acc : BusAccess),
    (∀ (n : SwitchName) (role : Role), (decode (.bus a acc)).switchRole = some (n, role) ↔
      ∃ e ∈ refTable, e.name = n ∧ answersAt a role e = true) ∧
    (decode (.bus a acc)).switchRole = (lookup refTable a).map fun hit => (hit.1.name, hit.2)

/-- Words written out from the opcode table decode to their rows (R122). -/
def Obligations.WrittenOutWordsDecode : Prop :=
  decodeTableWord 16 0xC000 = some (.store80Off (.rd 0)) ∧
  decodeTableWord 24 0x1C001 = some (.store80On (.wr 0 0)) ∧
  decodeTableWord 16 0xC010 = some (.kbrdStrobeStatus (.rd 0)) ∧
  decodeTableWord 16 0xC01A = some (.textStatus (.rd 0)) ∧
  decodeTableWord 16 0xC030 = some (.speakerOff (.rd 0)) ∧
  decodeTableWord 16 0xC051 = some (.textOn (.rd 0)) ∧
  decodeTableWord 16 0xC070 = some (.ptrigStatus (.rd 0)) ∧
  decodeTableWord 24 0x1C08B = some (.bsrSel5On (.wr 0 0)) ∧
  decodeTableWord 16 0xC0E6 = some (.drvSm3Off (.rd 0)) ∧
  decodeTableWord 16 0xC019 = some (.unmapped 0xC019 (.rd 0)) ∧
  decodeTableWord 24 0x20000 = none

/-! ### The bus operations, row by row -/

/-- A write to an off or on address of a write-only switch clears or sets its latch and its status byte, and changes
nothing else (R135, R138, R161 to R168; addresses and flags are the spec's decision D6, the policy D3,
the sentinels D5, logs 9, 10 and 11). -/
def Obligations.WriteToWriteOnlySwitchSetsItsLatch : Prop :=
  ∀ r ∈ writeOnlySwitchRows, ∀ (data : Byte) (cyc : Cycle) (s : State), ∃ t,
    exec (r.build (.wr data cyc)) s = .next t ∧
    t.latch r.name = r.value ∧ LatchesKeptBut (· = r.name) s t ∧
    t.status.read? r.status.toNat = some (sentinel refConfig r.value) ∧ StatusKeptBut (· = r.status.toNat) s t ∧
    t.banked = s.banked ∧ t.log = s.log ∧ t.returned = s.returned ∧ NoCall s t ∧ VideoKept s t

/-- A read of an off or on address of a write-only switch changes no latch; it rewrites the status byte with the current
state and returns one byte, of which nothing is said (R135, R136, R138, R153(2); the policy is decision D3, log 10). -/
def Obligations.ReadOfWriteOnlySwitchKeepsItsLatch : Prop :=
  ∀ r ∈ writeOnlySwitchRows, ∀ (cyc : Cycle) (s : State), ∃ t,
    exec (r.build (.rd cyc)) s = .next t ∧
    t.latches = s.latches ∧
    t.status.read? r.status.toNat = some (sentinel refConfig (s.latch r.name)) ∧
    StatusKeptBut (· = r.status.toNat) s t ∧
    t.banked = s.banked ∧ t.log = s.log ∧ (∃ b, t.returned = s.returned ++ [b]) ∧ NoCall s t ∧ VideoKept s t

/-- A read or a write of an off or on address of a display switch clears or sets its latch and its status byte, and
changes nothing else; a read returns one byte, of which nothing is said (R135, R138, R173 to R176; log 9). -/
def Obligations.AccessToDisplaySwitchSetsItsLatch : Prop :=
  ∀ r ∈ displaySwitchRows, ∀ (acc : BusAccess) (s : State), ∃ t,
    exec (r.build acc) s = .next t ∧
    t.latch r.name = r.value ∧ LatchesKeptBut (· = r.name) s t ∧
    t.status.read? r.status.toNat = some (sentinel refConfig r.value) ∧ StatusKeptBut (· = r.status.toNat) s t ∧
    t.banked = s.banked ∧ t.log = s.log ∧ ReadReturns acc (fun _ => True) s t ∧ NoCall s t ∧ VideoKept s t

/-- An access to a status address without a handler rewrites its byte with the sentinel of the latch, and a read returns
that byte; no latch and nothing else changes (R141, R150, R170, R171; D6, D10, logs 9
and 11). -/
def Obligations.StatusAddressShowsItsLatch : Prop :=
  ∀ r ∈ statusAddressRows, ∀ (acc : BusAccess) (s : State), ∃ t,
    exec (r.build acc) s = .next t ∧
    t.latches = s.latches ∧
    t.status.read? r.address.toNat = some (sentinel refConfig (s.latch r.name)) ∧
    StatusKeptBut (· = r.address.toNat) s t ∧
    t.banked = s.banked ∧ t.log = s.log ∧ ReadReturns acc (· = sentinel refConfig (s.latch r.name)) s t ∧
    NoCall s t ∧ VideoKept s t

/-- Any access to the keyboard strobe calls the keyboard handler, exactly once, with the address and the cycle count; the
block changes nothing outside the handler's footprint, and the handler hands off events of its own only (R140, R169, R241,
R243; the footprint is decision D11, log 5; the form of a handed-off event is the model's, log 7). -/
def Obligations.KeyboardStrobeCallsItsHandler : Prop :=
  ∀ (acc : BusAccess) (s : State), ∃ t,
    exec (.kbrdStrobeStatus acc) s = .next t ∧
    t.invoked = s.invoked ++ [⟨.kbdStrobe, 0xC010, acc.cycle⟩] ∧ HandsOff .kbdStrobe acc.cycle s t ∧
    (∀ h, h ≠ .kbdStrobe → keyedGet 0 t.peripherals h = keyedGet 0 s.peripherals h) ∧
    LatchesKeptBut (· = .kbrdStrobe) s t ∧ t.status = s.status ∧ t.banked = s.banked ∧ t.log = s.log ∧
    ReadReturns acc (fun _ => True) s t ∧ VideoKept s t

/-- Any access to a push button, a paddle or the paddle trigger calls the joystick handler, exactly once, with the address
and the cycle count; the block changes nothing outside the handler's footprint, and the handler hands off events of its own
only (R140, R177 to R184, R241, R243; the footprint is decision D11, log 5; the form of a handed-off event is the model's,
log 7). -/
def Obligations.JoystickAddressCallsItsHandler : Prop :=
  ∀ r ∈ joystickAddresses, ∀ (acc : BusAccess) (s : State), ∃ t,
    exec (r.build acc) s = .next t ∧
    t.invoked = s.invoked ++ [⟨.joystick, r.address, acc.cycle⟩] ∧ HandsOff .joystick acc.cycle s t ∧
    (∀ h, h ≠ .joystick → keyedGet 0 t.peripherals h = keyedGet 0 s.peripherals h) ∧
    LatchesKeptBut (fun n => ∃ r' ∈ joystickAddresses, n = r'.name) s t ∧ t.status = s.status ∧ t.banked = s.banked ∧
    t.log = s.log ∧ ReadReturns acc (fun _ => True) s t ∧ VideoKept s t

/-- Any access to either speaker address calls the speaker handler, exactly once, and hands off one click at the cycle
count; the block changes nothing outside the handler's footprint (R134, R172, R247; D11, logs 5 and 7). -/
def Obligations.SpeakerAddressClicksOnce : Prop :=
  ∀ r ∈ speakerRows, ∀ (acc : BusAccess) (s : State), ∃ t,
    exec (r.build acc) s = .next t ∧
    t.invoked = s.invoked ++ [⟨.speaker, r.address, acc.cycle⟩] ∧ t.outbound = s.outbound ++ [.click acc.cycle] ∧
    (∀ h, h ≠ .speaker → keyedGet 0 t.peripherals h = keyedGet 0 s.peripherals h) ∧
    LatchesKeptBut (· = .speaker) s t ∧ t.status = s.status ∧ t.banked = s.banked ∧ t.log = s.log ∧
    ReadReturns acc (fun _ => True) s t ∧ VideoKept s t

/-- Any access to one of the sixteen BankedRAM addresses writes `B` and the two coarse latches as the reference table
says, with their two status bytes, and changes nothing else: not the selector's own latch, not the handler side (R224,
R228, R229; fourteen rows are the spec's decision D8, log 13). That the call leaves no record in `invoked` is the model's
choice, log 6. -/
def Obligations.BankedRamAddressDecodesItsFragment : Prop :=
  ∀ r ∈ bankAddresses, ∀ (acc : BusAccess) (s : State), ∃ t,
    exec (r.build acc) s = .next t ∧
    (∀ j : Fin 8, t.banked[j] = decide (j.val = r.index)) ∧
    t.latch .bsrBank2 = r.bankTwo ∧ t.latch .bsrReadRam = r.readRam ∧
    LatchesKeptBut (fun n => n = .bsrBank2 ∨ n = .bsrReadRam) s t ∧
    t.status.read? 0xC011 = some (sentinel refConfig r.bankTwo) ∧
    t.status.read? 0xC012 = some (sentinel refConfig r.readRam) ∧
    StatusKeptBut (fun k => k = 0xC011 ∨ k = 0xC012) s t ∧
    t.log = s.log ∧ ReadReturns acc (fun _ => True) s t ∧ NoCall s t ∧ VideoKept s t

/-- Any access to a disk phase address clears or sets its latch; there is no status byte, and nothing else changes (R135,
R193 to R196; log 9). -/
def Obligations.DiskPhaseAddressSetsItsLatch : Prop :=
  ∀ r ∈ diskAddresses, ∀ (acc : BusAccess) (s : State), ∃ t,
    exec (r.1 acc) s = .next t ∧
    t.latch r.2.1 = r.2.2 ∧ LatchesKeptBut (· = r.2.1) s t ∧
    t.status = s.status ∧ t.banked = s.banked ∧ t.log = s.log ∧ ReadReturns acc (fun _ => True) s t ∧
    NoCall s t ∧ VideoKept s t

/-- An access to an address that no entry answers appends one event with its address, kind and cycle count, and changes
nothing else; a read returns one byte, of which nothing is said (R132, R373, R150). -/
def Obligations.UnmappedAccessOnlyLogs : Prop :=
  ∀ (a : Address) (acc : BusAccess) (s : State), lookup refTable a = none → ∃ t,
    exec (.unmapped a acc) s = .next t ∧
    t.log = s.log ++ [.unknownSoftSwitch a acc.kind acc.cycle] ∧
    t.latches = s.latches ∧ t.status = s.status ∧ t.banked = s.banked ∧
    ReadReturns acc (fun _ => True) s t ∧ NoCall s t ∧ VideoKept s t

/-! ### The decode calls, RESET and TICK -/

/-- A text snapshot of either length gives the cell buffer of R292 to R297 and changes nothing but the outputs: 24 rows of
the length's columns, each cell's visibility, glyph code and inverse bit, the cell width, the two colours (the glyph
mapping, the colours and the style of bytes 128 to 255 are decision D14, log 17). -/
def Obligations.TextSnapshotGivesItsCells : Prop :=
  ∀ p ∈ [(Instr.decText960, 40), (Instr.decText1920, 80)],
  ∀ (snap : List Byte) (alt : Bool) (flash : FlashArg) (mixed color : Bool) (s : State),
    snap.length = 24 * p.2 → ∃ buf : CellBuffer,
    exec (p.1 snap alt flash mixed color) s = .next { s with outputs := s.outputs ++ [.cells buf] } ∧
    buf.charWidth * p.2 = 560 ∧ buf.background = black ∧
    buf.foreground = (if color then white else refConfig.phosphor) ∧
    buf.cells.length = 24 ∧ (∀ row ∈ buf.cells, row.length = p.2) ∧
    ∀ r < 24, ∀ c < p.2, ∃ row, buf.cells[r]? = some row ∧ row[c]? = some
      { visible := !mixed || decide (20 ≤ r)
        glyph := glyphOf (byteAt snap (r * p.2 + c)) alt
        inverse := inverseSpec (byteAt snap (r * p.2 + c)) alt (flashValue flash s) }

/-- A lo-res snapshot of each of the four lengths gives a buffer of 560 by 8 lines a row in which every pixel shows the
nibble of its block, and changes nothing but the outputs (R311, R312, R314; the default permutation and palettes are
decisions D16 and D21, logs 14 and 16). -/
def Obligations.LoResSnapshotGivesItsBlocks : Prop :=
  ∀ p ∈ [(Instr.decLores800, 20, 40), (Instr.decLores960, 24, 40), (Instr.decLores1600, 20, 80),
    (Instr.decLores1920, 24, 80)],
  ∀ (snap : List Byte) (color : Bool) (s : State), snap.length = p.2.1 * p.2.2 → ∃ buf,
    exec (p.1 snap color) s = .next { s with outputs := s.outputs ++ [.pixels buf] } ∧
    Shows buf (8 * p.2.1) (loresPalette refConfig color) (loresPixelSpec snap p.2.2)

/-- A hi-res snapshot of either single length gives a buffer in which every pixel shows the run that covers it last, and
changes nothing but the outputs (R326 to R335; run lengths, parities and the monochrome value are decisions D17 to D19,
log 15). -/
def Obligations.HiResSnapshotGivesItsRuns : Prop :=
  ∀ p ∈ [(Instr.decHires6400, 160), (Instr.decHires7680, 192)],
  ∀ (snap : List Byte) (color : Bool) (s : State), snap.length = 40 * p.2 → ∃ buf,
    exec (p.1 snap color) s = .next { s with outputs := s.outputs ++ [.pixels buf] } ∧
    Shows buf p.2 (hiresPalette refConfig color) (fun y x => hiresPixelSpec color (lineBytes snap 40 y) x)

/-- A double hi-res snapshot of either length gives a buffer in which every pixel shows its permuted window, or without
colour its bit, and changes nothing but the outputs (R350 to R357; the default permutation and palettes are decisions D20
and D21, logs 14 and 16). -/
def Obligations.DoubleHiResSnapshotGivesItsWindows : Prop :=
  ∀ p ∈ [(Instr.decHires12800, 160), (Instr.decHires15360, 192)],
  ∀ (snap : List Byte) (color : Bool) (s : State), snap.length = 80 * p.2 → ∃ buf,
    exec (p.1 snap color) s = .next { s with outputs := s.outputs ++ [.pixels buf] } ∧
    Shows buf p.2 (loresPalette refConfig color) (fun y x => dhiresPixelSpec color (lineBytes snap 80 y) x)

/-- A zero-length snapshot returns `Empty` from any decoder, raises nothing and changes nothing else (R262,
R260). -/
def Obligations.EmptySnapshotGivesEmpty : Prop :=
  ∀ (call : DecoderCall) (s : State),
    exec (.decEmpty call) s = .next { s with outputs := s.outputs ++ [.empty] }

/-- A positive length that the decoder does not admit returns `Empty`, raises one `BadLength` event and changes nothing
else (R262, R374; the set of lengths and the event are decision D13). -/
def Obligations.UnknownLengthIsLoggedAndEmpty : Prop :=
  ∀ (call : DecoderCall) (snap : List Byte) (s : State), snap ≠ [] → snap.length ∉ call.decoder.lengths →
    exec (.decBadLen call snap) s =
      .next { s with log := s.log ++ [.badLength call.decoder snap.length], outputs := s.outputs ++ [.empty] }

/-- RESET sets `TEXT`, clears every other latch of the table, `B` and the flash counter and phase, writes every core-owned
status byte with its sentinel, and leaves every other byte and the log as they are (R402; the zeros are decision D9, log 8).
That it leaves `P[h]`, the records, the outputs and the pending trace as they are is the model's choice, log 22. -/
def Obligations.ResetOperationSetsTheResetValues : Prop :=
  ∀ s : State, ∃ t,
    exec .reset s = .next t ∧
    (∀ e ∈ refTable, t.latch e.name = decide (e.name = .text)) ∧
    (∀ j : Fin 8, t.banked[j] = false) ∧ t.flashCount = 0 ∧ t.flashPhase = false ∧
    StatusAgrees refConfig t ∧ StatusKeptBut (fun k => k ∈ coreOwnedAddresses refTable) s t ∧
    t.log = s.log ∧ t.outputs = s.outputs ∧ BusSideKept s t

/-- TICK advances the flash counter; on reaching 24 it returns to 0 and the phase inverts; nothing else changes (R298;
decision D15, log 12). -/
def Obligations.TickOperationAdvancesTheFlashCounter : Prop :=
  ∀ s : State, exec .tick s = .next
    (if s.flashCount + 1 = 24 then { s with flashCount := 0, flashPhase := !s.flashPhase }
     else { s with flashCount := s.flashCount + 1 })

/-! ### Invariants and whole-machine rules -/

/-- Every step from a sound state gives a sound state: the status region keeps its canonical form and lists exactly the
core-owned bytes, every core-owned byte is the sentinel of its latch (`INV-STATUS`, R33), the flash counter stays below
its period, `B` stays a vector of the reference table or all 0, and the two coarse latches stay what `B` says (R227; decisions D8 and D31,
logs 4 and 13). -/
def Obligations.EveryStepKeepsTheStateSound : Prop :=
  ∀ s t : State, s.Sound refConfig → step s = .next t → t.Sound refConfig

/-- The state after reset is sound (R45, R33; decision D9, log 8). -/
def Obligations.ResetStateIsSound : Prop := State.reset.Sound refConfig

/-- Construction with the configuration of this hardware gives the state after reset (R400, R402; decision D9,
logs 8 and 26). -/
def Obligations.ConstructionGivesTheResetState : Prop := construct refConfig = .next State.reset

/-- No operation of a constructed block faults or is refused: every one completes (R152, R378; handlers
return, log 21). -/
def Obligations.EveryOperationCompletes : Prop :=
  ∀ (i : Instr) (s : State), ∃ t, exec i s = .next t

/-- A latch changes only by reset, by the default set or clear of its own switch, or by the call of a handler that may
write it: "mutated only by dispatch; never by outside code directly" (R22, R243; the footprint of an external handler is
decision D11, log 5). -/
def Obligations.LatchChangesOnlyThroughItsWriters : Prop :=
  ∀ (i : Instr) (s t : State) (n : SwitchName), exec i s = .next t → t.latch n ≠ s.latch n →
    i = .reset ∨ ∃ a acc e role, encode i = .bus a acc ∧ lookup refTable a = some (e, role) ∧
      ((e.handler = none ∧ e.name = n ∧ role ≠ .status) ∨ ∃ h, e.handler = some h ∧ HandlerMayWrite refConfig h n)

/-- The log is append-only and an operation raises at most one event (R35, R376; decisions D25 and D30, log 19). -/
def Obligations.LogGrowsByAtMostOneEvent : Prop :=
  ∀ (i : Instr) (s t : State), exec i s = .next t → t.log = s.log ∨ ∃ e, t.log = s.log ++ [e]

/-- The data byte of a write changes nothing: "`data` is never stored and never passed to a handler" (R151, decision D10). -/
def Obligations.WriteDataIsDiscarded : Prop :=
  ∀ (a : Address) (data data' : Byte) (cyc : Cycle) (s : State),
    exec (decode (.bus a (.wr data cyc))) s = exec (decode (.bus a (.wr data' cyc))) s

/-- The block never computes with a cycle count: two runs of one access that differ in it agree on everything that the block
owns, but for the count that an `UnknownSoftSwitch` event records in the log: its address and kind agree too. They agree on the byte that a read of a core-owned address returns, and, where no external handler is called, on every
latch and on the whole handler side too. Nothing is said of what an external handler, which is handed the count, leaves in its
footprint, nor of the byte of a peripheral (R241, R243, R385; decision D12, log 20). -/
def Obligations.CycleCountIsOnlyPassedOn : Prop :=
  ∀ (a : Address) (data : Byte) (c c' : Cycle) (s : State),
  ∀ p ∈ [(BusAccess.rd c, BusAccess.rd c'), (.wr data c, .wr data c')], ∃ t t',
    exec (decode (.bus a p.1)) s = .next t ∧ exec (decode (.bus a p.2)) s = .next t' ∧
    CoreAgrees refConfig t t' ∧
    (coreOwned refTable a = true → t.returned = t'.returned) ∧
    (¬ CallsExternal refTable a → t.latches = t'.latches ∧ NoCall t' t)

/-- After `n` ticks from a counter at 0 with phase 0, the counter is `n` modulo 24 and the phase is 1 exactly when an odd
number of whole periods has passed (R298; decision D15, log 12). -/
def Obligations.FlashPhaseInvertsEveryPeriod : Prop :=
  ∀ (n : Nat) (s : State), s.flashCount = 0 → s.flashPhase = false →
    (flashTick refConfig)^[n] s =
      { s with flashCount := n % 24, flashPhase := decide (n / 24 % 2 = 1) }

/-- Reset does not depend on the state before it: from two sound states it gives the same latches, derived latches, status
region, flash counter and phase (R402, 95 V1.1; decision D9, log 8). -/
def Obligations.ResetForgetsTheStateBefore : Prop :=
  ∀ s s' : State, s.Sound refConfig → s'.Sound refConfig →
    saveState (hardReset refConfig s) = saveState (hardReset refConfig s') ∧
    (hardReset refConfig s).status = (hardReset refConfig s').status

/-- The latches alone determine the status region of a sound state, so a save file need not hold it (R86; decision D31,
log 4). -/
def Obligations.SavedStateDeterminesTheStatusBytes : Prop :=
  ∀ s s' : State, s.Sound refConfig → s'.Sound refConfig → s.latches = s'.latches → s.status = s'.status

/-! ### Dispatch over any table and any type of a cycle count (R6, R385; log 20) -/

/-- At an address that no entry of the table answers, whatever the table, Dispatch appends `UnknownSoftSwitch` with the
address, the kind and the cycle count, and changes nothing else; no handler is invoked (R132). With `REF_TABLE` the
address `0xC0FF` is one. -/
def Obligations.UnmappedDispatchOnlyRaisesItsEvent : Prop :=
  (∀ (C : Type) (cfg : Config) (a : Address) (k : Kind) (cyc : C) (s : State C), lookup cfg.table a = none →
    dispatch cfg a k cyc s = { s with log := s.log ++ [.unknownSoftSwitch a k cyc] }) ∧
  lookup refTable 0xC0FF = none

/-- The default set or clear of a plain switch, whatever the table and the policy: when the gate fires the latch takes the
value of the role, otherwise it stays; no other latch changes (R135). With `REF_TABLE`, from reset, a read of `0xC050`
gives `S[TEXT] = 0`. -/
def Obligations.DefaultToggleFollowsTheGate : Prop :=
  (∀ (C : Type) (cfg : Config) (a : Address) (k : Kind) (cyc : C) (s : State C) (e : SwitchEntry) (role : Role) (v : Bool),
    lookup cfg.table a = some (e, role) → e.handler = none →
    (role = .off ∧ v = false) ∨ (role = .on ∧ v = true) →
    (dispatch cfg a k cyc s).latch e.name = (if fires cfg.policy e.writeOnly k then v else s.latch e.name) ∧
    LatchesKeptBut (· = e.name) s (dispatch cfg a k cyc s)) ∧
  (dispatch refConfig 0xC050 .rd 0 State.reset).latch .text = false

/-- At the status address of a switch without a handler, whatever the table, Dispatch writes that byte with the sentinel of
the latch, changes no latch and no other byte, raises nothing and calls no handler; a read and a write do the same
(R141). With `REF_TABLE`, from reset, an access to `0xC01A` writes the set sentinel there. -/
def Obligations.StatusAccessOnlyRefreshesItsByte : Prop :=
  (∀ (C : Type) (cfg : Config) (a : Address) (k k' : Kind) (cyc : C) (s : State C) (e : SwitchEntry),
    lookup cfg.table a = some (e, .status) → e.handler = none →
    (dispatch cfg a k cyc s).status.read? a.toNat = some (sentinel cfg (s.latch e.name)) ∧
    StatusKeptBut (· = a.toNat) s (dispatch cfg a k cyc s) ∧
    dispatch cfg a k cyc s = { s with status := (dispatch cfg a k cyc s).status } ∧
    dispatch cfg a k' cyc s = dispatch cfg a k cyc s) ∧
  (dispatch refConfig 0xC01A .rd 0 State.reset).status.read? 0xC01A = some refConfig.sentSet

/-- An access to an address of a switch changes no latch of another switch, except those that its handler may write
(R143(d); the footprint is decision D11, log 5). -/
def Obligations.DispatchKeepsTheLatchesOfOtherSwitches : Prop :=
  ∀ (C : Type) (cfg : Config) (a : Address) (k : Kind) (cyc : C) (s : State C) (e : SwitchEntry) (role : Role),
    lookup cfg.table a = some (e, role) →
    LatchesKeptBut (fun n => n = e.name ∨ ∃ h, e.handler = some h ∧ HandlerMayWrite cfg h n) s
      (dispatch cfg a k cyc s)

/-- For every accepted table under the policy GATE, a write to the on address of a plain switch and then a read of its
status address returns the set sentinel, whose bit 7 is 1; after a write to the off address it returns the clear sentinel,
whose bit 7 is 0 (R143(b); the policy is decision D3, log 10). -/
def Obligations.WrittenSwitchReadsBackAtItsStatusAddress : Prop :=
  ∀ (C : Type) (cfg : Config) (e : SwitchEntry) (off on st : Address) (data : Byte) (c c' : C) (s : State C),
    wellFormedConfig cfg → cfg.policy = .gate → e ∈ cfg.table → e.handler = none →
    e.offAddress = some off → e.onAddress = some on → e.statusAddress = some st →
    (busRead cfg st c' (busWrite cfg on data c s)).returned = s.returned ++ [cfg.sentSet] ∧
    (busRead cfg st c' (busWrite cfg off data c s)).returned = s.returned ++ [cfg.sentClear] ∧
    statusFlag cfg.sentSet = true ∧ statusFlag cfg.sentClear = false

/-- The call of an external handler keeps to its footprint, whatever the table: only its own entries' latches and its own
state change; status bytes that the core holds, `B`, the flash counter, the log and the outputs do not; the record is
exact, and the events handed off are its own (R241, R243, R247, R250; decision D11, log 5; the form of an event is log 7). -/
def Obligations.ExternalHandlerKeepsToItsFootprint : Prop :=
  ∀ (C : Type) (cfg : Config) (h : HandlerId) (a : Address) (cyc : C) (s : State C), h ≠ .bankedRam →
    let t := invoke cfg h a cyc s
    t.invoked = s.invoked ++ [⟨h, a, cyc⟩] ∧ HandsOff h cyc s t ∧
    LatchesKeptBut (fun n => ∃ e ∈ cfg.table, e.handler = some h ∧ e.name = n) s t ∧
    (∀ h', h' ≠ h → keyedGet 0 t.peripherals h' = keyedGet 0 s.peripherals h') ∧
    t.status = s.status ∧ t.banked = s.banked ∧ t.log = s.log ∧ t.returned = s.returned ∧ VideoKept s t

/-- `INV-STATUS` for every accepted table and either policy (R33): construction gives it, reset gives it whatever stood
before, and every line of a trace keeps it, a bus access, a decode call, a reset and a tick (the arrangement of the status
bytes is decision D31, log 4). -/
def Obligations.StatusBytesAgreeForEveryAcceptedTable : Prop :=
  ∀ (C : Type) (cfg : Config), wellFormedConfig cfg →
    (∃ s : State C, construct cfg = .next s ∧ StatusAgrees cfg s) ∧
    (∀ s : State C, StatusAgrees cfg (hardReset cfg s)) ∧
    ∀ (s : State C) (line : TraceLine C), StatusAgrees cfg s → StatusAgrees cfg (runLine cfg line s)

/-- In an accepted table the present addresses are pairwise distinct, and every address is unmapped or resolves to exactly
one switch and role, which is what `Lookup` finds (R23, R413). -/
def Obligations.AcceptedTableResolvesEachAddressOnce : Prop :=
  ∀ cfg : Config, wellFormedConfig cfg →
    (cfg.table.flatMap entryAddresses).Nodup ∧
    ∀ (a : Address) (e e' : SwitchEntry) (role role' : Role),
      e ∈ cfg.table → e' ∈ cfg.table → answersAt a role e = true → answersAt a role' e' = true →
      e = e' ∧ role = role' ∧ lookup cfg.table a = some (e, role)

/-- A table with an entry that no address reaches gives no block: construction is refused with that defect (R375, R410; what
counts as a defect is decision D30, log 19). -/
def Obligations.UnreachableEntryIsRefusedAtConstruction : Prop :=
  ∀ (C : Type) (cfg : Config), (∃ e ∈ cfg.table, e.offAddress = none ∧ e.statusAddress = none) →
    ∃ e ∈ cfg.table, e.offAddress = none ∧ e.statusAddress = none ∧
      construct (C := C) cfg = .refused (.constructionDefect (.noAddress e.name))

/-- The BankedRAM decode is a pure function of the low four bits of the address: `B` and, where the table has them, the two
coarse latches after it depend on nothing else (R221; a table without the two entries is log 25). -/
def Obligations.BankedRamReadsOnlyTheFragment : Prop :=
  ∀ (C : Type) (cfg : Config) (a a' : Address) (s s' : State C),
    a.toNat % 16 = a'.toNat % 16 →
    (bankedRam cfg a s).banked = (bankedRam cfg a' s').banked ∧
    ((entryNamed cfg.table .bsrBank2).isSome → (entryNamed cfg.table .bsrReadRam).isSome →
      (bankedRam cfg a s).latch .bsrBank2 = (bankedRam cfg a' s').latch .bsrBank2 ∧
      (bankedRam cfg a s).latch .bsrReadRam = (bankedRam cfg a' s').latch .bsrReadRam)

/-- The last access to the BankedRAM block wins, and so the same access twice is the same as once (R227(d), R227(e), derived
in the spec from decision D8, log 13). -/
def Obligations.LastBankedRamAccessWins : Prop :=
  ∀ (a b : Address) (s : State), Memory.wf s.status = true →
    bankedRam refConfig a (bankedRam refConfig b s) = bankedRam refConfig a s

/-! ### The pipelines -/

/-- `Classify` is the constant map of the ten rows, and `None` elsewhere (R261, R100). -/
def Obligations.ClassifyAdmitsExactlyTheTable : Prop :=
  classify .text 960 = some ⟨24, 40, none, false⟩ ∧ classify .text 1920 = some ⟨24, 80, none, true⟩ ∧
  classify .lores 800 = some ⟨20, 40, some true, false⟩ ∧ classify .lores 960 = some ⟨24, 40, some false, false⟩ ∧
  classify .lores 1600 = some ⟨20, 80, some true, true⟩ ∧ classify .lores 1920 = some ⟨24, 80, some false, true⟩ ∧
  classify .hires 6400 = some ⟨160, 40, some true, false⟩ ∧ classify .hires 7680 = some ⟨192, 40, some false, false⟩ ∧
  classify .hires 12800 = some ⟨160, 80, some true, true⟩ ∧
  classify .hires 15360 = some ⟨192, 80, some false, true⟩ ∧
  ∀ (d : DecoderKind) (n : Nat), n ∉ d.lengths → classify d n = none

/-- A decoder is a pure function of its inputs: from every state the same call on the same snapshot appends the same output
and raises the same events, and touches nothing else; only a text call that is handed the flash phase sees it, as an
input; an empty snapshot gives the empty output and no event (R260). -/
def Obligations.DecoderOutputDependsOnItsOperandsOnly : Prop :=
  ∀ (C : Type) (cfg : Config) (call : DecoderCall) (snap : List Byte),
    ∃ (o : Bool → DecodeOutput) (es : List (Event C)),
    (∀ s : State C, decodeCall cfg call snap s =
      { s with outputs := s.outputs ++ [o s.flashPhase], log := s.log ++ es }) ∧
    ((∀ alt mixed color, call ≠ .text alt .flashPhase mixed color) → o true = o false) ∧
    (snap = [] → (∀ b, o b = .empty) ∧ es = [])

/-- The palette stage: with every row 560 wide, the four bytes of the pixel at column `x` of line `y` stand at offset
`4 * (560 * y + x)`, red, green, blue, alpha (R63, R275; decisions D21 and D29, log 16). -/
def Obligations.PaletteStagePlacesEveryPixel : Prop :=
  ∀ (cfg : Config) (pal : List Rgb) (rows : List (List Nat)), (∀ row ∈ rows, row.length = 560) →
    (palettize cfg pal rows).bytes.length = 4 * 560 * rows.length ∧
    ∀ y row x i c, rows[y]? = some row → row[x]? = some i → pal[i]? = some c →
      pixelAt (palettize cfg pal rows) y x = [c.red, c.green, c.blue, cfg.alpha]

/-- The walk of the artifact engine, with its skip flag and its overwriting, computes the index of the last emitting run
that covers a pixel (R328 to R335; run lengths are decision D17, log 15). -/
def Obligations.HiResWalkShowsTheLastCoveringRun : Prop :=
  ∀ (color : Bool) (line : List Byte), (hiresLine refConfig color line).length = 560 ∧
    ∀ x < 560, (hiresLine refConfig color line)[x]? = some (hiresPixelSpec color line x)

/-- A lone set bit that is not consumed by a pair shows its own colour at its normal start and the pixel after: one of the
four indices selected by column parity and high bit, never white (R327, R330; the parity is decision D18, log 15). -/
def Obligations.LoneBitShowsItsOwnColour : Prop :=
  ∀ (line : List Byte) (k d : Nat), k < 280 → d < 2 → emits line k = true → hiresNextBit line k = false →
    2 * k + hiresHigh line k + d < 560 →
    (hiresLine refConfig true line)[2 * k + hiresHigh line k + d]? = some (4 * hiresHigh line k + 2 - k % 2)

/-- A white pair takes the pixel before its normal start, whatever was written there: the retroactive white merge; and its
own first two pixels are white (R331, R332; decision D17, log 15). -/
def Obligations.WhitePairTakesThePixelBefore : Prop :=
  ∀ (line : List Byte) (k x : Nat), k < 280 → emits line k = true → hiresNextBit line k = true →
    2 * k + hiresHigh line k ≤ x + 1 → x ≤ 2 * k + hiresHigh line k + 1 → x < 560 →
    (hiresLine refConfig true line)[x]? = some (4 * hiresHigh line k + 3)

/-- A line with no data bit set is black, whatever its high bits (R337(c), R338(1)). -/
def Obligations.LineWithoutDataBitsIsBlack : Prop :=
  ∀ (cfg : Config) (color : Bool) (line : List Byte), (∀ k < 280, hiresBit line k = false) →
    hiresLine cfg color line = List.replicate 560 0

/-- Without colour a hi-res line has the two indices 0 and 3 only; with colour every index is below 8, and no lit pixel has
a black index (R334, R327; the monochrome value is decision D19, log 15). -/
def Obligations.HiResIndicesStayInTheirPalette : Prop :=
  ∀ line : List Byte,
    (∀ i ∈ hiresLine refConfig false line, i = 0 ∨ i = 3) ∧
    (∀ i ∈ hiresLine refConfig true line, i < 8 ∧ i ≠ 4)

/-- The colour index of a double hi-res pixel: the window is the sum of the current stream bit and the next three, each
shifted by its position modulo 4, so that bit `i` of it is the one whose position is `i` modulo 4; the index is the
permuted window (R353). -/
def Obligations.WindowBitIsTheStreamBitOfItsPosition : Prop :=
  ∀ (cfg : Config) (line : List Byte) (x : Nat),
    dhiresWindow line x = ((List.range 4).map fun d => (streamBit line (x + d)).toNat * 2 ^ ((x + d) % 4)).sum ∧
    dhiresWindow line x < 16 ∧
    (∀ i < 4, (dhiresWindow line x).testBit i = streamBit line (x + (i + 4 - x % 4) % 4)) ∧
    (x < 560 → (dhiresLine cfg true line)[x]? = some (cfg.dhgrPerm.getD (dhiresWindow line x) 0))

/-- A stretch of the stream with period four gives one constant window (R358(e), derived in the spec from R353). -/
def Obligations.PeriodFourStreamGivesOneColour : Prop :=
  ∀ (line : List Byte) (x n : Nat), (∀ t, x ≤ t → t < x + n → streamBit line (t + 4) = streamBit line t) →
    ∀ j ≤ n, dhiresWindow line (x + j) = dhiresWindow line x

/-- Bit 7 of a byte is ignored by the double hi-res pipeline: lines that agree on bits 6 to 0 of every byte give the same
output (R352, R358(c); decision D20, log 14). -/
def Obligations.DoubleHiResIgnoresHighBits : Prop :=
  ∀ (cfg : Config) (color : Bool) (line line' : List Byte),
    (∀ m b, m < 80 → b < 7 → (byteAt line m).getLsbD b = (byteAt line' m).getLsbD b) →
    dhiresLine cfg color line = dhiresLine cfg color line'

/-- Without colour, the number of lit pixels of a double hi-res line is the number of its set data bits (R356, R358(d); the index of a lit pixel is decision D20, log 14). -/
def Obligations.MonochromeDoubleHiResLightsEachSetBit : Prop :=
  ∀ (cfg : Config) (line : List Byte), line.length = 80 →
    (dhiresLine cfg false line).countP (· == 15) =
      (line.map fun v => ((List.range 7).countP fun b => v.getLsbD b)).sum ∧
    ∀ i ∈ dhiresLine cfg false line, i = 0 ∨ i = 15

/-- The properties of text (R299): code 0 is always inverse; code 160, the space, shows glyph 32 and is never inverse, while
code 32 is; 64 to 127 follow the flash phase without the alternate set; 96 to 127 are inverse with it. The clause on code 160, its
style and its glyph, is decision D14 (90 C1), log 17. -/
def Obligations.TextStyleDecidesTheInverseBit : Prop :=
  ∀ (v : Byte) (alt flash : Bool),
    inverseBit flash (textStyle 0 alt) = true ∧
    (glyphOf 160 alt = .character 32 ∧ textStyle 160 alt = .normal ∧ inverseBit flash (textStyle 160 alt) = false) ∧
    inverseBit flash (textStyle 32 alt) = true ∧
    (64 ≤ v.toNat → v.toNat ≤ 127 → inverseBit flash (textStyle v false) = flash) ∧
    (96 ≤ v.toNat → v.toNat ≤ 127 → inverseBit flash (textStyle v true) = true)

/-- The display plan: `TEXT` selects all 24 text rows and no graphics; otherwise `HIRES` selects the hi-res or the lo-res
decoder, and `MIXED` the short picture with the text rows from 20 on or the full one. The lengths it asks for are those of
R280, and every one is a length that its decoder admits (R280; the plan is decision D23, a contract of the callers;
a latch that the state does not hold reads 0, log 32). -/
def Obligations.DisplayPlanAsksForAdmittedLengths : Prop :=
  ∀ s : State,
    (s.latch .text = true → displayPlan s = ⟨none, some 0⟩ ∧ planLengths (displayPlan s) = []) ∧
    (s.latch .text = false → s.latch .hires = false → s.latch .mixed = false →
      displayPlan s = ⟨some (.lores, 24), none⟩ ∧ planLengths (displayPlan s) = [960, 1920]) ∧
    (s.latch .text = false → s.latch .hires = false → s.latch .mixed = true →
      displayPlan s = ⟨some (.lores, 20), some 20⟩ ∧ planLengths (displayPlan s) = [800, 1600]) ∧
    (s.latch .text = false → s.latch .hires = true → s.latch .mixed = false →
      displayPlan s = ⟨some (.hires, 192), none⟩ ∧ planLengths (displayPlan s) = [7680, 15360]) ∧
    (s.latch .text = false → s.latch .hires = true → s.latch .mixed = true →
      displayPlan s = ⟨some (.hires, 160), some 20⟩ ∧ planLengths (displayPlan s) = [6400, 12800]) ∧
    ∀ (d : DecoderKind) (lines : Nat), (displayPlan s).graphics = some (d, lines) →
      ∀ n ∈ planLengths (displayPlan s), n ∈ d.lengths

/-! ### Programs -/

/-- A program runs under its own configuration, whatever the type of a cycle count (log 20). For every configuration that
construction accepts, a program's run answers
the state after its lines from top to bottom, each one the operation of that configuration, with the bytes, the calls and the
outputs that its lines appended; for any other there is no run but the refusal with the defect of construction. Under the
configuration of this hardware the operation of a line is what `exec` does with the decoded instruction, and a step of the
machine is the step of that configuration (R120, R375, R403; the trace as a list is log 1, the refusal's order of checks
log 19). -/
def Obligations.ProgramRunsUnderItsConfiguration : Prop :=
  (∀ (C : Type) (p : Program C), wellFormedConfig p.config →
    ∃ r, p.run = .next r ∧ r.endState = runTrace p.config p.lines p.start ∧
      r.endState.returned = p.start.returned ++ r.returned ∧
      r.endState.invoked = p.start.invoked ++ r.invoked ∧
      r.endState.outputs = p.start.outputs ++ r.outputs) ∧
  (∀ (C : Type) (p : Program C) (d : ConstructionDefect), firstDefect p.config = some d →
    p.run = .refused (.constructionDefect d) ∧ construct (C := C) p.config = .refused (.constructionDefect d)) ∧
  (∀ (line : TraceLine) (s : State), exec (decode line) s = .next (runLine refConfig line s)) ∧
  ∀ s : State, step s = stepUnder refConfig s
end

