-- ==== Sys2Proof/Laws/Data.lean ====
section
/-!
SUPPORT. The laws of the keyed lists and of the status region: what a read gives after a write, and that every write
keeps the canonical form.
-/
namespace Sys2Proof.Machine

section Keyed

variable {α β : Type} [DecidableEq α]

/-- A read after a write of a keyed list: the new value at the key, the old one elsewhere. -/
theorem keyedGet_keyedSet (d : β) (l : List (α × β)) (key k : α) (v : β) :
    keyedGet d (keyedSet l key v) k = if key = k then v else keyedGet d l k := by
  induction l with
  | nil => simp [keyedSet, keyedGet]
  | cons c l ih =>
    obtain ⟨a, b⟩ := c
    simp only [keyedSet]
    by_cases h : a = key
    · subst h; simp only [if_true, keyedGet]; split <;> rfl
    · simp only [h, if_false, keyedGet, ih]
      by_cases h1 : a = k
      · have : ¬ key = k := fun h2 => h (h1.trans h2.symm)
        simp [h1, this]
      · simp [h1]

/-- A write of a key that the list carries leaves the keys as they are. -/
theorem keyedSet_keys (l : List (α × β)) (key : α) (v : β) (h : key ∈ l.map Prod.fst) :
    (keyedSet l key v).map Prod.fst = l.map Prod.fst := by
  induction l with
  | nil => simp at h
  | cons c l ih =>
    obtain ⟨a, b⟩ := c
    simp only [keyedSet]
    by_cases h1 : a = key
    · simp [h1]
    · have : key ∈ l.map Prod.fst := by simpa [Ne.symm h1] using h
      simp [h1, ih this]

/-- Of two writes of one key the later one stands. -/
theorem keyedSet_keyedSet_same (l : List (α × β)) (key : α) (v w : β) :
    keyedSet (keyedSet l key v) key w = keyedSet l key w := by
  induction l with
  | nil => simp [keyedSet]
  | cons c l ih =>
    obtain ⟨a, b⟩ := c
    simp only [keyedSet]
    split <;> simp_all [keyedSet]

/-- Writes of two keys commute when the list carries the key that is written later. -/
theorem keyedSet_comm (l : List (α × β)) (k k' : α) (v w : β) (hne : k ≠ k') (h : k ∈ l.map Prod.fst) :
    keyedSet (keyedSet l k' w) k v = keyedSet (keyedSet l k v) k' w := by
  induction l with
  | nil => simp at h
  | cons c l ih =>
    obtain ⟨a, b⟩ := c
    by_cases h1 : a = k
    · subst h1; simp [keyedSet, hne]
    · have hk : k ∈ l.map Prod.fst := by simpa [Ne.symm h1] using h
      by_cases h2 : a = k'
      · subst h2; simp [keyedSet, h1]
      · simp [keyedSet, h1, h2, ih hk]

/-- A written key is carried. -/
theorem mem_keyedSet (l : List (α × β)) (key : α) (v : β) : key ∈ (keyedSet l key v).map Prod.fst := by
  induction l with
  | nil => simp [keyedSet]
  | cons c l ih =>
    obtain ⟨a, b⟩ := c
    by_cases h : a = key <;> simp_all [keyedSet]

end Keyed

namespace Memory

/-- A read after a write: the new byte at the address, the old one everywhere else. -/
theorem read?_write (m : Memory) (k j : Nat) (v : Byte) :
    (m.write k v).read? j = if k = j then some v else m.read? j := by
  induction m with
  | nil => simp [write, read?]
  | cons c m ih =>
    obtain ⟨a, b⟩ := c
    simp only [write]
    by_cases h1 : k < a
    · simp [h1, read?]
    · by_cases h2 : k = a
      · subst h2; simp only [h1, if_false, if_true, read?]; split <;> rfl
      · simp only [h1, h2, if_false, read?, ih]
        by_cases h3 : a = j
        · have : ¬ k = j := fun h => h2 (h.trans h3.symm)
          simp [h3, this]
        · simp [h3]

/-- The tail of a rising list is rising. -/
theorem rising_tail (c : Host.Cell) (m : Memory) (h : rising (c :: m) = true) : rising m = true := by
  cases m with
  | nil => rfl
  | cons d m => simp only [rising, Bool.and_eq_true] at h; exact h.2

/-- In a rising list every later address is larger than the first. -/
theorem lt_of_rising (c : Host.Cell) (m : Memory) (h : rising (c :: m) = true) : ∀ d ∈ m, c.1 < d.1 := by
  induction m generalizing c with
  | nil => simp
  | cons e m ih =>
    intro d hd
    simp only [rising, Bool.and_eq_true, decide_eq_true_eq] at h
    rcases List.mem_cons.1 hd with rfl | hd
    · exact h.1
    · exact Nat.lt_trans h.1 (ih e h.2 d hd)

/-- A write to a listed address leaves the list of addresses as it is. -/
theorem write_keys (m : Memory) (k : Nat) (v : Byte) (hr : rising m = true) (h : k ∈ m.map Prod.fst) :
    (m.write k v).map Prod.fst = m.map Prod.fst := by
  induction m with
  | nil => simp at h
  | cons c m ih =>
    obtain ⟨a, b⟩ := c
    by_cases h2 : k = a
    · subst h2; simp [write]
    · have hk : k ∈ m.map Prod.fst := by simpa [h2] using h
      obtain ⟨d, hd, rfl⟩ := List.mem_map.1 hk
      have := lt_of_rising _ _ hr d hd
      have hlt : ¬ d.1 < a := by simp only at this; omega
      simp [write, hlt, h2, ih (rising_tail _ _ hr) hk]

/-- Putting a cell before a rising list whose first address is larger. -/
theorem rising_cons (a : Nat) (b : Byte) (m : Memory) (hm : rising m = true)
    (h : ∀ c, m.head? = some c → a < c.1) : rising ((a, b) :: m) = true := by
  cases m with
  | nil => rfl
  | cons d m => simp [rising, hm, h d rfl]

/-- The first address after a write is the smaller of the written one and the old first one. -/
theorem head_write (m : Memory) (k : Nat) (v : Byte) (c : Host.Cell) (h : (m.write k v).head? = some c) :
    c.1 = k ∨ ∃ d, m.head? = some d ∧ c.1 = d.1 := by
  cases m with
  | nil => left; simp [write] at h; simp [← h]
  | cons d m =>
    obtain ⟨a, b⟩ := d
    simp only [write] at h
    split at h
    · left; simp at h; simp [← h]
    · split at h
      · left; simp at h; simp [← h]
      · right; exact ⟨(a, b), rfl, by simp at h; simp [← h]⟩

/-- A write keeps the addresses strictly rising. -/
theorem write_rising (m : Memory) (k : Nat) (v : Byte) (h : rising m = true) : rising (m.write k v) = true := by
  induction m with
  | nil => rfl
  | cons c m ih =>
    obtain ⟨a, b⟩ := c
    have ht := rising_tail _ _ h
    simp only [write]
    split
    · next hk => simp [rising, hk, h]
    · split
      · next hk =>
        subst hk
        exact rising_cons _ _ _ ht fun c hc => by
          cases m with
          | nil => simp at hc
          | cons d m => simp only [rising, Bool.and_eq_true, decide_eq_true_eq] at h; simp at hc; rw [← hc]; exact h.1
      · next hk hk' =>
        refine rising_cons _ _ _ (ih ht) fun c hc => ?_
        rcases head_write m k v c hc with hck | ⟨d, hd, hcd⟩
        · omega
        · cases m with
          | nil => simp at hd
          | cons e m =>
            simp only [rising, Bool.and_eq_true, decide_eq_true_eq] at h
            simp at hd; subst hd; rw [hcd]; exact h.1

/-- The addresses after a write are the written one and the old ones. -/
theorem mem_write (m : Memory) (k : Nat) (v : Byte) (c : Host.Cell) (h : c ∈ m.write k v) : c = (k, v) ∨ c ∈ m := by
  induction m with
  | nil => simpa [write] using h
  | cons d m ih =>
    obtain ⟨a, b⟩ := d
    simp only [write] at h
    split at h
    · simpa using h
    · split at h
      · rcases List.mem_cons.1 h with h | h
        · exact .inl h
        · exact .inr (List.mem_cons_of_mem _ h)
      · rcases List.mem_cons.1 h with h | h
        · exact .inr (by simp [h])
        · exact (ih h).imp_right (List.mem_cons_of_mem _)

/-- A write inside the region keeps the canonical form. -/
theorem write_wf (m : Memory) (k : Nat) (v : Byte) (hk : inRegion k = true) (h : m.wf = true) :
    (m.write k v).wf = true := by
  simp only [wf, Bool.and_eq_true, List.all_eq_true] at h ⊢
  refine ⟨write_rising m k v h.1, fun c hc => ?_⟩
  rcases mem_write m k v c hc with rfl | hc
  · exact hk
  · exact h.2 c hc

/-- An address below every listed one reads as unlisted. -/
theorem read?_of_lt (m : Memory) (k : Nat) (h : ∀ c ∈ m, k < c.1) : m.read? k = none := by
  induction m with
  | nil => rfl
  | cons c m ih =>
    have h1 := h c List.mem_cons_self
    obtain ⟨a, b⟩ := c
    have hne : ¬ a = k := by simp only at h1; omega
    simp [read?, hne, ih fun d hd => h d (List.mem_cons_of_mem _ hd)]

/-- In the canonical form, memories that read the same are the same. -/
theorem ext_of_rising (m m' : Memory) (hr : rising m = true) (hr' : rising m' = true)
    (h : ∀ k, m.read? k = m'.read? k) : m = m' := by
  induction m generalizing m' with
  | nil =>
    cases m' with
    | nil => rfl
    | cons c m' => have := h c.1; simp [read?] at this
  | cons c m ih =>
    cases m' with
    | nil => have := h c.1; simp [read?] at this
    | cons c' m' =>
      have hlt := lt_of_rising c m hr
      have hlt' := lt_of_rising c' m' hr'
      obtain ⟨a, b⟩ := c
      obtain ⟨a', b'⟩ := c'
      have ha : a = a' := by
        by_contra hne
        rcases Nat.lt_or_gt_of_ne hne with h1 | h1
        · have := h a
          rw [read?_of_lt ((a', b') :: m') a fun d hd => by
            rcases List.mem_cons.1 hd with rfl | hd
            · exact h1
            · exact Nat.lt_trans h1 (hlt' d hd)] at this
          simp [read?] at this
        · have := h a'
          rw [read?_of_lt ((a, b) :: m) a' fun d hd => by
            rcases List.mem_cons.1 hd with rfl | hd
            · exact h1
            · exact Nat.lt_trans h1 (hlt d hd)] at this
          simp [read?] at this
      subst ha
      have hb := h a
      simp only [read?, if_true, Option.some.injEq] at hb
      subst hb
      congr 1
      refine ih m' (rising_tail _ _ hr) (rising_tail _ _ hr') fun k => ?_
      by_cases hk : a = k
      · subst hk; rw [read?_of_lt m a hlt, read?_of_lt m' a hlt']
      · have := h k
        simpa [read?, hk] using this

end Memory

/-- The status region after the refresh of one entry, read at any address. -/
theorem refreshCell_read? (cfg : Config) (l : List (SwitchName × Bool)) (m : Memory) (e : SwitchEntry) (k : Nat) :
    (refreshCell cfg l m e).read? k =
      if e.handler = none ∧ e.statusAddress.map BitVec.toNat = some k then some (sentinel cfg (keyedGet false l e.name))
      else m.read? k := by
  unfold refreshCell
  split
  · next h1 h2 => simp [h1, h2, Memory.read?_write]
  · next h => 
    rw [if_neg]
    rintro ⟨h1, h2⟩
    cases h3 : e.statusAddress with
    | none => simp [h3] at h2
    | some a => exact h a h1 h3

end Sys2Proof.Machine
end

