-- ==== Sys2Proof/Laws/Decode.lean ====
section
/-!
SUPPORT. The address rows of the decoder against the switch table, and what an operation that the encoder writes as a bus
line, or the decoder reads from one, does.
-/
namespace Sys2Proof

open Sys2Proof.Machine

/-- Every row compares the whole address (R91). -/
theorem ioRows_mask : ioRows.all (fun r => r.mask == 0xFFFF) = true := rfl

/-- Every present address of the reference table has a row. -/
theorem refTable_in_ioRows :
    refTable.all (fun e => (entryAddresses e).all fun x => ioRows.any fun r => r.pattern == x) = true := rfl

/-- Every row's address is one that `Lookup` resolves. -/
theorem ioRows_resolved : ioRows.all (fun r => (lookup refTable r.pattern).isSome) = true := rfl

/-- A row answers at its own address and at no other. -/
theorem IoRow.answers_iff {r : IoRow} (hr : r ∈ ioRows) (a : Address) : r.answers a = true ↔ r.pattern = a := by
  have h := List.all_eq_true.1 ioRows_mask r hr
  have ones : (0xFFFF : Address) = BitVec.allOnes 16 := rfl
  rw [beq_iff_eq, ones] at h
  rw [IoRow.answers, h, BitVec.and_allOnes, beq_iff_eq, eq_comm]

/-- The row found at an address is one of the rows and has that address. -/
theorem find_row {a : Address} {r : IoRow} (h : ioRows.find? (fun r => r.answers a) = some r) :
    r ∈ ioRows ∧ r.pattern = a :=
  ⟨List.mem_of_find?_eq_some h, (IoRow.answers_iff (List.mem_of_find?_eq_some h) a).1 (List.find?_some (p := fun r : IoRow => r.answers a) h)⟩

/-- An entry that answers at an address lists it. -/
theorem mem_entryAddresses {a : Address} {role : Role} {e : SwitchEntry} (h : answersAt a role e = true) :
    a ∈ entryAddresses e := by
  cases role <;> simp only [answersAt, beq_iff_eq] at h <;> simp [entryAddresses, h]

/-- No row answers at an address exactly when `Lookup` finds no entry (R97, R132). -/
theorem find_row_none_iff (a : Address) : ioRows.find? (fun r => r.answers a) = none ↔ lookup refTable a = none := by
  constructor
  · intro h
    have hno : ∀ role, refTable.find? (answersAt a role) = none := by
      intro role
      rw [List.find?_eq_none]
      intro e he hx
      have h1 := List.all_eq_true.1 (List.all_eq_true.1 refTable_in_ioRows e he) a (mem_entryAddresses hx)
      obtain ⟨r, hr, hra⟩ := List.any_eq_true.1 h1
      exact List.find?_eq_none.1 h r hr ((IoRow.answers_iff hr a).2 (by simpa using hra))
    simp [lookup, findRole, hno]
  · intro h
    rw [List.find?_eq_none]
    intro r hr ha
    have hs := List.all_eq_true.1 ioRows_resolved r hr
    rw [(IoRow.answers_iff hr a).1 ha, h] at hs
    simp at hs

/-- The operation of every row is encoded at the row's address. -/
theorem encode_row {r : IoRow} (hr : r ∈ ioRows) (acc : BusAccess) : encode (r.build acc) = .bus r.pattern acc := by
  simp only [ioRows, writeOnlyRows, statusRows, speakerDisplayRows, joystickRows, bankRows, diskRows, List.mem_append,
    List.mem_cons, List.not_mem_nil, or_false] at hr
  repeat' (first | rfl | rcases hr with hr | hr)

/-- What is decoded from a bus line is encoded as that line. -/
theorem encode_decodeBus (a : Address) (acc : BusAccess) : encode (decodeBus a acc) = .bus a acc := by
  unfold decodeBus
  split
  · next r h => rw [encode_row (find_row h).1, (find_row h).2]
  · rfl

namespace Machine

/-- An operation that the encoder writes as a bus line is the bus operation at that line's address. -/
theorem exec_of_encode_bus {i : Instr} {a : Address} {acc : BusAccess} (h : encode i = .bus a acc) (s : State) :
    exec i s = .next (busOp refConfig a acc s) := by
  cases i <;> cases h <;> rfl

/-- The operation decoded from a bus line is the bus operation at its address. -/
theorem exec_decodeBus (a : Address) (acc : BusAccess) (s : State) :
    exec (decodeBus a acc) s = .next (busOp refConfig a acc s) :=
  exec_of_encode_bus (encode_decodeBus a acc) s

end Machine

end Sys2Proof
end

