-- ==== Sys2Proof/Laws/State.lean ====
section
/-!
SUPPORT. Each field of the state after each named update.
-/
namespace Sys2Proof.Machine

variable {C : Type}

variable (s : State C)

@[simp] theorem State.setLatch_latches (n : SwitchName) (v : Bool) :
    (s.setLatch n v).latches = keyedSet s.latches n v := rfl
@[simp] theorem State.setLatch_banked (n : SwitchName) (v : Bool) : (s.setLatch n v).banked = s.banked := rfl
@[simp] theorem State.setLatch_status (n : SwitchName) (v : Bool) : (s.setLatch n v).status = s.status := rfl
@[simp] theorem State.setLatch_flashCount (n : SwitchName) (v : Bool) :
    (s.setLatch n v).flashCount = s.flashCount := rfl
@[simp] theorem State.setLatch_flashPhase (n : SwitchName) (v : Bool) :
    (s.setLatch n v).flashPhase = s.flashPhase := rfl
@[simp] theorem State.setLatch_log (n : SwitchName) (v : Bool) : (s.setLatch n v).log = s.log := rfl
@[simp] theorem State.setLatch_peripherals (n : SwitchName) (v : Bool) :
    (s.setLatch n v).peripherals = s.peripherals := rfl
@[simp] theorem State.setLatch_invoked (n : SwitchName) (v : Bool) : (s.setLatch n v).invoked = s.invoked := rfl
@[simp] theorem State.setLatch_outbound (n : SwitchName) (v : Bool) : (s.setLatch n v).outbound = s.outbound := rfl
@[simp] theorem State.setLatch_pending (n : SwitchName) (v : Bool) : (s.setLatch n v).pending = s.pending := rfl
@[simp] theorem State.setLatch_returned (n : SwitchName) (v : Bool) : (s.setLatch n v).returned = s.returned := rfl
@[simp] theorem State.setLatch_outputs (n : SwitchName) (v : Bool) : (s.setLatch n v).outputs = s.outputs := rfl
@[simp] theorem State.setLatch_draws (n : SwitchName) (v : Bool) : (s.setLatch n v).draws = s.draws := rfl

@[simp] theorem State.writeStatus_latches (a : Address) (v : Byte) : (s.writeStatus a v).latches = s.latches := rfl
@[simp] theorem State.writeStatus_banked (a : Address) (v : Byte) : (s.writeStatus a v).banked = s.banked := rfl
@[simp] theorem State.writeStatus_status (a : Address) (v : Byte) :
    (s.writeStatus a v).status = s.status.write a.toNat v := rfl
@[simp] theorem State.writeStatus_flashCount (a : Address) (v : Byte) :
    (s.writeStatus a v).flashCount = s.flashCount := rfl
@[simp] theorem State.writeStatus_flashPhase (a : Address) (v : Byte) :
    (s.writeStatus a v).flashPhase = s.flashPhase := rfl
@[simp] theorem State.writeStatus_log (a : Address) (v : Byte) : (s.writeStatus a v).log = s.log := rfl
@[simp] theorem State.writeStatus_peripherals (a : Address) (v : Byte) :
    (s.writeStatus a v).peripherals = s.peripherals := rfl
@[simp] theorem State.writeStatus_invoked (a : Address) (v : Byte) : (s.writeStatus a v).invoked = s.invoked := rfl
@[simp] theorem State.writeStatus_outbound (a : Address) (v : Byte) : (s.writeStatus a v).outbound = s.outbound := rfl
@[simp] theorem State.writeStatus_pending (a : Address) (v : Byte) : (s.writeStatus a v).pending = s.pending := rfl
@[simp] theorem State.writeStatus_returned (a : Address) (v : Byte) : (s.writeStatus a v).returned = s.returned := rfl
@[simp] theorem State.writeStatus_outputs (a : Address) (v : Byte) : (s.writeStatus a v).outputs = s.outputs := rfl
@[simp] theorem State.writeStatus_draws (a : Address) (v : Byte) : (s.writeStatus a v).draws = s.draws := rfl
@[simp] theorem State.writeStatus_latch (a : Address) (v : Byte) (m : SwitchName) :
    (s.writeStatus a v).latch m = s.latch m := rfl

@[simp] theorem State.setBanked_latches (v : Vector Bool 8) : (s.setBanked v).latches = s.latches := rfl
@[simp] theorem State.setBanked_banked (v : Vector Bool 8) : (s.setBanked v).banked = v := rfl
@[simp] theorem State.setBanked_status (v : Vector Bool 8) : (s.setBanked v).status = s.status := rfl
@[simp] theorem State.setBanked_flashCount (v : Vector Bool 8) : (s.setBanked v).flashCount = s.flashCount := rfl
@[simp] theorem State.setBanked_flashPhase (v : Vector Bool 8) : (s.setBanked v).flashPhase = s.flashPhase := rfl
@[simp] theorem State.setBanked_log (v : Vector Bool 8) : (s.setBanked v).log = s.log := rfl
@[simp] theorem State.setBanked_peripherals (v : Vector Bool 8) : (s.setBanked v).peripherals = s.peripherals := rfl
@[simp] theorem State.setBanked_invoked (v : Vector Bool 8) : (s.setBanked v).invoked = s.invoked := rfl
@[simp] theorem State.setBanked_outbound (v : Vector Bool 8) : (s.setBanked v).outbound = s.outbound := rfl
@[simp] theorem State.setBanked_pending (v : Vector Bool 8) : (s.setBanked v).pending = s.pending := rfl
@[simp] theorem State.setBanked_returned (v : Vector Bool 8) : (s.setBanked v).returned = s.returned := rfl
@[simp] theorem State.setBanked_outputs (v : Vector Bool 8) : (s.setBanked v).outputs = s.outputs := rfl
@[simp] theorem State.setBanked_draws (v : Vector Bool 8) : (s.setBanked v).draws = s.draws := rfl
@[simp] theorem State.setBanked_latch (v : Vector Bool 8) (m : SwitchName) : (s.setBanked v).latch m = s.latch m := rfl

@[simp] theorem State.raise_latches (e : Event C) : (s.raise e).latches = s.latches := rfl
@[simp] theorem State.raise_banked (e : Event C) : (s.raise e).banked = s.banked := rfl
@[simp] theorem State.raise_status (e : Event C) : (s.raise e).status = s.status := rfl
@[simp] theorem State.raise_flashCount (e : Event C) : (s.raise e).flashCount = s.flashCount := rfl
@[simp] theorem State.raise_flashPhase (e : Event C) : (s.raise e).flashPhase = s.flashPhase := rfl
@[simp] theorem State.raise_log (e : Event C) : (s.raise e).log = s.log ++ [e] := rfl
@[simp] theorem State.raise_peripherals (e : Event C) : (s.raise e).peripherals = s.peripherals := rfl
@[simp] theorem State.raise_invoked (e : Event C) : (s.raise e).invoked = s.invoked := rfl
@[simp] theorem State.raise_outbound (e : Event C) : (s.raise e).outbound = s.outbound := rfl
@[simp] theorem State.raise_pending (e : Event C) : (s.raise e).pending = s.pending := rfl
@[simp] theorem State.raise_returned (e : Event C) : (s.raise e).returned = s.returned := rfl
@[simp] theorem State.raise_outputs (e : Event C) : (s.raise e).outputs = s.outputs := rfl
@[simp] theorem State.raise_draws (e : Event C) : (s.raise e).draws = s.draws := rfl
@[simp] theorem State.raise_latch (e : Event C) (m : SwitchName) : (s.raise e).latch m = s.latch m := rfl

@[simp] theorem State.returnByte_latches (b : Byte) : (s.returnByte b).latches = s.latches := rfl
@[simp] theorem State.returnByte_banked (b : Byte) : (s.returnByte b).banked = s.banked := rfl
@[simp] theorem State.returnByte_status (b : Byte) : (s.returnByte b).status = s.status := rfl
@[simp] theorem State.returnByte_flashCount (b : Byte) : (s.returnByte b).flashCount = s.flashCount := rfl
@[simp] theorem State.returnByte_flashPhase (b : Byte) : (s.returnByte b).flashPhase = s.flashPhase := rfl
@[simp] theorem State.returnByte_log (b : Byte) : (s.returnByte b).log = s.log := rfl
@[simp] theorem State.returnByte_peripherals (b : Byte) : (s.returnByte b).peripherals = s.peripherals := rfl
@[simp] theorem State.returnByte_invoked (b : Byte) : (s.returnByte b).invoked = s.invoked := rfl
@[simp] theorem State.returnByte_outbound (b : Byte) : (s.returnByte b).outbound = s.outbound := rfl
@[simp] theorem State.returnByte_pending (b : Byte) : (s.returnByte b).pending = s.pending := rfl
@[simp] theorem State.returnByte_returned (b : Byte) : (s.returnByte b).returned = s.returned ++ [b] := rfl
@[simp] theorem State.returnByte_outputs (b : Byte) : (s.returnByte b).outputs = s.outputs := rfl
@[simp] theorem State.returnByte_draws (b : Byte) : (s.returnByte b).draws = s.draws := rfl
@[simp] theorem State.returnByte_latch (b : Byte) (m : SwitchName) : (s.returnByte b).latch m = s.latch m := rfl

@[simp] theorem State.emit_latches (o : DecodeOutput) : (s.emit o).latches = s.latches := rfl
@[simp] theorem State.emit_banked (o : DecodeOutput) : (s.emit o).banked = s.banked := rfl
@[simp] theorem State.emit_status (o : DecodeOutput) : (s.emit o).status = s.status := rfl
@[simp] theorem State.emit_flashCount (o : DecodeOutput) : (s.emit o).flashCount = s.flashCount := rfl
@[simp] theorem State.emit_flashPhase (o : DecodeOutput) : (s.emit o).flashPhase = s.flashPhase := rfl
@[simp] theorem State.emit_log (o : DecodeOutput) : (s.emit o).log = s.log := rfl
@[simp] theorem State.emit_peripherals (o : DecodeOutput) : (s.emit o).peripherals = s.peripherals := rfl
@[simp] theorem State.emit_invoked (o : DecodeOutput) : (s.emit o).invoked = s.invoked := rfl
@[simp] theorem State.emit_outbound (o : DecodeOutput) : (s.emit o).outbound = s.outbound := rfl
@[simp] theorem State.emit_pending (o : DecodeOutput) : (s.emit o).pending = s.pending := rfl
@[simp] theorem State.emit_returned (o : DecodeOutput) : (s.emit o).returned = s.returned := rfl
@[simp] theorem State.emit_outputs (o : DecodeOutput) : (s.emit o).outputs = s.outputs ++ [o] := rfl
@[simp] theorem State.emit_draws (o : DecodeOutput) : (s.emit o).draws = s.draws := rfl
@[simp] theorem State.emit_latch (o : DecodeOutput) (m : SwitchName) : (s.emit o).latch m = s.latch m := rfl

@[simp] theorem State.recordCall_latches (i : Invocation C) : (s.recordCall i).latches = s.latches := rfl
@[simp] theorem State.recordCall_banked (i : Invocation C) : (s.recordCall i).banked = s.banked := rfl
@[simp] theorem State.recordCall_status (i : Invocation C) : (s.recordCall i).status = s.status := rfl
@[simp] theorem State.recordCall_flashCount (i : Invocation C) : (s.recordCall i).flashCount = s.flashCount := rfl
@[simp] theorem State.recordCall_flashPhase (i : Invocation C) : (s.recordCall i).flashPhase = s.flashPhase := rfl
@[simp] theorem State.recordCall_log (i : Invocation C) : (s.recordCall i).log = s.log := rfl
@[simp] theorem State.recordCall_peripherals (i : Invocation C) : (s.recordCall i).peripherals = s.peripherals := rfl
@[simp] theorem State.recordCall_invoked (i : Invocation C) : (s.recordCall i).invoked = s.invoked ++ [i] := rfl
@[simp] theorem State.recordCall_outbound (i : Invocation C) : (s.recordCall i).outbound = s.outbound := rfl
@[simp] theorem State.recordCall_pending (i : Invocation C) : (s.recordCall i).pending = s.pending := rfl
@[simp] theorem State.recordCall_returned (i : Invocation C) : (s.recordCall i).returned = s.returned := rfl
@[simp] theorem State.recordCall_outputs (i : Invocation C) : (s.recordCall i).outputs = s.outputs := rfl
@[simp] theorem State.recordCall_draws (i : Invocation C) : (s.recordCall i).draws = s.draws := rfl
@[simp] theorem State.recordCall_latch (i : Invocation C) (m : SwitchName) : (s.recordCall i).latch m = s.latch m := rfl

@[simp] theorem State.handOff_latches (o : Outbound C) : (s.handOff o).latches = s.latches := rfl
@[simp] theorem State.handOff_banked (o : Outbound C) : (s.handOff o).banked = s.banked := rfl
@[simp] theorem State.handOff_status (o : Outbound C) : (s.handOff o).status = s.status := rfl
@[simp] theorem State.handOff_flashCount (o : Outbound C) : (s.handOff o).flashCount = s.flashCount := rfl
@[simp] theorem State.handOff_flashPhase (o : Outbound C) : (s.handOff o).flashPhase = s.flashPhase := rfl
@[simp] theorem State.handOff_log (o : Outbound C) : (s.handOff o).log = s.log := rfl
@[simp] theorem State.handOff_peripherals (o : Outbound C) : (s.handOff o).peripherals = s.peripherals := rfl
@[simp] theorem State.handOff_invoked (o : Outbound C) : (s.handOff o).invoked = s.invoked := rfl
@[simp] theorem State.handOff_outbound (o : Outbound C) : (s.handOff o).outbound = s.outbound ++ [o] := rfl
@[simp] theorem State.handOff_pending (o : Outbound C) : (s.handOff o).pending = s.pending := rfl
@[simp] theorem State.handOff_returned (o : Outbound C) : (s.handOff o).returned = s.returned := rfl
@[simp] theorem State.handOff_outputs (o : Outbound C) : (s.handOff o).outputs = s.outputs := rfl
@[simp] theorem State.handOff_draws (o : Outbound C) : (s.handOff o).draws = s.draws := rfl
@[simp] theorem State.handOff_latch (o : Outbound C) (m : SwitchName) : (s.handOff o).latch m = s.latch m := rfl

@[simp] theorem State.returnFree_latches (a : Address) (cyc : C) : (s.returnFree a cyc).latches = s.latches := rfl
@[simp] theorem State.returnFree_banked (a : Address) (cyc : C) : (s.returnFree a cyc).banked = s.banked := rfl
@[simp] theorem State.returnFree_status (a : Address) (cyc : C) : (s.returnFree a cyc).status = s.status := rfl
@[simp] theorem State.returnFree_flashCount (a : Address) (cyc : C) :
    (s.returnFree a cyc).flashCount = s.flashCount := rfl
@[simp] theorem State.returnFree_flashPhase (a : Address) (cyc : C) :
    (s.returnFree a cyc).flashPhase = s.flashPhase := rfl
@[simp] theorem State.returnFree_log (a : Address) (cyc : C) : (s.returnFree a cyc).log = s.log := rfl
@[simp] theorem State.returnFree_peripherals (a : Address) (cyc : C) :
    (s.returnFree a cyc).peripherals = s.peripherals := rfl
@[simp] theorem State.returnFree_invoked (a : Address) (cyc : C) : (s.returnFree a cyc).invoked = s.invoked := rfl
@[simp] theorem State.returnFree_outbound (a : Address) (cyc : C) :
    (s.returnFree a cyc).outbound = s.outbound := rfl
@[simp] theorem State.returnFree_pending (a : Address) (cyc : C) : (s.returnFree a cyc).pending = s.pending := rfl
@[simp] theorem State.returnFree_returned (a : Address) (cyc : C) :
    (s.returnFree a cyc).returned = s.returned ++ [Config.freeByte (s.draw a cyc)] := rfl
@[simp] theorem State.returnFree_outputs (a : Address) (cyc : C) : (s.returnFree a cyc).outputs = s.outputs := rfl
@[simp] theorem State.returnFree_draws (a : Address) (cyc : C) : (s.returnFree a cyc).draws = s.draws + 1 := rfl
@[simp] theorem State.returnFree_latch (a : Address) (cyc : C) (m : SwitchName) :
    (s.returnFree a cyc).latch m = s.latch m := rfl

@[simp] theorem State.drawLatch_latches (h : HandlerId) (a : Address) (cyc : C) (n : SwitchName) :
    (s.drawLatch h a cyc n).latches = keyedSet s.latches n (Config.freeBit h n (s.draw a cyc)) := rfl
@[simp] theorem State.drawLatch_banked (h : HandlerId) (a : Address) (cyc : C) (n : SwitchName) :
    (s.drawLatch h a cyc n).banked = s.banked := rfl
@[simp] theorem State.drawLatch_status (h : HandlerId) (a : Address) (cyc : C) (n : SwitchName) :
    (s.drawLatch h a cyc n).status = s.status := rfl
@[simp] theorem State.drawLatch_flashCount (h : HandlerId) (a : Address) (cyc : C) (n : SwitchName) :
    (s.drawLatch h a cyc n).flashCount = s.flashCount := rfl
@[simp] theorem State.drawLatch_flashPhase (h : HandlerId) (a : Address) (cyc : C) (n : SwitchName) :
    (s.drawLatch h a cyc n).flashPhase = s.flashPhase := rfl
@[simp] theorem State.drawLatch_log (h : HandlerId) (a : Address) (cyc : C) (n : SwitchName) :
    (s.drawLatch h a cyc n).log = s.log := rfl
@[simp] theorem State.drawLatch_peripherals (h : HandlerId) (a : Address) (cyc : C) (n : SwitchName) :
    (s.drawLatch h a cyc n).peripherals = s.peripherals := rfl
@[simp] theorem State.drawLatch_invoked (h : HandlerId) (a : Address) (cyc : C) (n : SwitchName) :
    (s.drawLatch h a cyc n).invoked = s.invoked := rfl
@[simp] theorem State.drawLatch_outbound (h : HandlerId) (a : Address) (cyc : C) (n : SwitchName) :
    (s.drawLatch h a cyc n).outbound = s.outbound := rfl
@[simp] theorem State.drawLatch_pending (h : HandlerId) (a : Address) (cyc : C) (n : SwitchName) :
    (s.drawLatch h a cyc n).pending = s.pending := rfl
@[simp] theorem State.drawLatch_returned (h : HandlerId) (a : Address) (cyc : C) (n : SwitchName) :
    (s.drawLatch h a cyc n).returned = s.returned := rfl
@[simp] theorem State.drawLatch_outputs (h : HandlerId) (a : Address) (cyc : C) (n : SwitchName) :
    (s.drawLatch h a cyc n).outputs = s.outputs := rfl
@[simp] theorem State.drawLatch_draws (h : HandlerId) (a : Address) (cyc : C) (n : SwitchName) :
    (s.drawLatch h a cyc n).draws = s.draws + 1 := rfl

@[simp] theorem State.drawPeripheral_latches (h : HandlerId) (a : Address) (cyc : C) :
    (s.drawPeripheral h a cyc).latches = s.latches := rfl
@[simp] theorem State.drawPeripheral_banked (h : HandlerId) (a : Address) (cyc : C) :
    (s.drawPeripheral h a cyc).banked = s.banked := rfl
@[simp] theorem State.drawPeripheral_status (h : HandlerId) (a : Address) (cyc : C) :
    (s.drawPeripheral h a cyc).status = s.status := rfl
@[simp] theorem State.drawPeripheral_flashCount (h : HandlerId) (a : Address) (cyc : C) :
    (s.drawPeripheral h a cyc).flashCount = s.flashCount := rfl
@[simp] theorem State.drawPeripheral_flashPhase (h : HandlerId) (a : Address) (cyc : C) :
    (s.drawPeripheral h a cyc).flashPhase = s.flashPhase := rfl
@[simp] theorem State.drawPeripheral_log (h : HandlerId) (a : Address) (cyc : C) :
    (s.drawPeripheral h a cyc).log = s.log := rfl
@[simp] theorem State.drawPeripheral_peripherals (h : HandlerId) (a : Address) (cyc : C) :
    (s.drawPeripheral h a cyc).peripherals = keyedSet s.peripherals h (Config.freePeripheral h (s.draw a cyc)) := rfl
@[simp] theorem State.drawPeripheral_invoked (h : HandlerId) (a : Address) (cyc : C) :
    (s.drawPeripheral h a cyc).invoked = s.invoked := rfl
@[simp] theorem State.drawPeripheral_outbound (h : HandlerId) (a : Address) (cyc : C) :
    (s.drawPeripheral h a cyc).outbound = s.outbound := rfl
@[simp] theorem State.drawPeripheral_pending (h : HandlerId) (a : Address) (cyc : C) :
    (s.drawPeripheral h a cyc).pending = s.pending := rfl
@[simp] theorem State.drawPeripheral_returned (h : HandlerId) (a : Address) (cyc : C) :
    (s.drawPeripheral h a cyc).returned = s.returned := rfl
@[simp] theorem State.drawPeripheral_outputs (h : HandlerId) (a : Address) (cyc : C) :
    (s.drawPeripheral h a cyc).outputs = s.outputs := rfl
@[simp] theorem State.drawPeripheral_draws (h : HandlerId) (a : Address) (cyc : C) :
    (s.drawPeripheral h a cyc).draws = s.draws + 1 := rfl
@[simp] theorem State.drawPeripheral_latch (h : HandlerId) (a : Address) (cyc : C) (m : SwitchName) :
    (s.drawPeripheral h a cyc).latch m = s.latch m := rfl

@[simp] theorem State.drawOutbound_latches (h : HandlerId) (a : Address) (cyc : C) :
    (s.drawOutbound h a cyc).latches = s.latches := rfl
@[simp] theorem State.drawOutbound_banked (h : HandlerId) (a : Address) (cyc : C) :
    (s.drawOutbound h a cyc).banked = s.banked := rfl
@[simp] theorem State.drawOutbound_status (h : HandlerId) (a : Address) (cyc : C) :
    (s.drawOutbound h a cyc).status = s.status := rfl
@[simp] theorem State.drawOutbound_flashCount (h : HandlerId) (a : Address) (cyc : C) :
    (s.drawOutbound h a cyc).flashCount = s.flashCount := rfl
@[simp] theorem State.drawOutbound_flashPhase (h : HandlerId) (a : Address) (cyc : C) :
    (s.drawOutbound h a cyc).flashPhase = s.flashPhase := rfl
@[simp] theorem State.drawOutbound_log (h : HandlerId) (a : Address) (cyc : C) :
    (s.drawOutbound h a cyc).log = s.log := rfl
@[simp] theorem State.drawOutbound_peripherals (h : HandlerId) (a : Address) (cyc : C) :
    (s.drawOutbound h a cyc).peripherals = s.peripherals := rfl
@[simp] theorem State.drawOutbound_invoked (h : HandlerId) (a : Address) (cyc : C) :
    (s.drawOutbound h a cyc).invoked = s.invoked := rfl
@[simp] theorem State.drawOutbound_outbound (h : HandlerId) (a : Address) (cyc : C) :
    (s.drawOutbound h a cyc).outbound = s.outbound ++ (Config.freeOutbound h (s.draw a cyc)).map (.emitted h) := rfl
@[simp] theorem State.drawOutbound_pending (h : HandlerId) (a : Address) (cyc : C) :
    (s.drawOutbound h a cyc).pending = s.pending := rfl
@[simp] theorem State.drawOutbound_returned (h : HandlerId) (a : Address) (cyc : C) :
    (s.drawOutbound h a cyc).returned = s.returned := rfl
@[simp] theorem State.drawOutbound_outputs (h : HandlerId) (a : Address) (cyc : C) :
    (s.drawOutbound h a cyc).outputs = s.outputs := rfl
@[simp] theorem State.drawOutbound_draws (h : HandlerId) (a : Address) (cyc : C) :
    (s.drawOutbound h a cyc).draws = s.draws + 1 := rfl
@[simp] theorem State.drawOutbound_latch (h : HandlerId) (a : Address) (cyc : C) (m : SwitchName) :
    (s.drawOutbound h a cyc).latch m = s.latch m := rfl

@[simp] theorem State.present_latches (l : TraceLine C) : (s.present l).latches = s.latches := rfl
@[simp] theorem State.present_banked (l : TraceLine C) : (s.present l).banked = s.banked := rfl
@[simp] theorem State.present_status (l : TraceLine C) : (s.present l).status = s.status := rfl
@[simp] theorem State.present_flashCount (l : TraceLine C) : (s.present l).flashCount = s.flashCount := rfl
@[simp] theorem State.present_flashPhase (l : TraceLine C) : (s.present l).flashPhase = s.flashPhase := rfl
@[simp] theorem State.present_log (l : TraceLine C) : (s.present l).log = s.log := rfl
@[simp] theorem State.present_peripherals (l : TraceLine C) : (s.present l).peripherals = s.peripherals := rfl
@[simp] theorem State.present_invoked (l : TraceLine C) : (s.present l).invoked = s.invoked := rfl
@[simp] theorem State.present_outbound (l : TraceLine C) : (s.present l).outbound = s.outbound := rfl
@[simp] theorem State.present_pending (l : TraceLine C) : (s.present l).pending = l :: s.pending := rfl
@[simp] theorem State.present_returned (l : TraceLine C) : (s.present l).returned = s.returned := rfl
@[simp] theorem State.present_outputs (l : TraceLine C) : (s.present l).outputs = s.outputs := rfl
@[simp] theorem State.present_draws (l : TraceLine C) : (s.present l).draws = s.draws := rfl
@[simp] theorem State.present_latch (l : TraceLine C) (m : SwitchName) : (s.present l).latch m = s.latch m := rfl

@[simp] theorem hardReset_latches (cfg : Config) : (hardReset cfg s).latches = resetLatches cfg := rfl
@[simp] theorem hardReset_banked (cfg : Config) : (hardReset cfg s).banked = resetBanked := rfl
@[simp] theorem hardReset_status (cfg : Config) : (hardReset cfg s).status = resetStatus cfg s.status := rfl
@[simp] theorem hardReset_flashCount (cfg : Config) : (hardReset cfg s).flashCount = 0 := rfl
@[simp] theorem hardReset_flashPhase (cfg : Config) : (hardReset cfg s).flashPhase = false := rfl
@[simp] theorem hardReset_log (cfg : Config) : (hardReset cfg s).log = s.log := rfl
@[simp] theorem hardReset_peripherals (cfg : Config) : (hardReset cfg s).peripherals = s.peripherals := rfl
@[simp] theorem hardReset_invoked (cfg : Config) : (hardReset cfg s).invoked = s.invoked := rfl
@[simp] theorem hardReset_outbound (cfg : Config) : (hardReset cfg s).outbound = s.outbound := rfl
@[simp] theorem hardReset_pending (cfg : Config) : (hardReset cfg s).pending = s.pending := rfl
@[simp] theorem hardReset_returned (cfg : Config) : (hardReset cfg s).returned = s.returned := rfl
@[simp] theorem hardReset_outputs (cfg : Config) : (hardReset cfg s).outputs = s.outputs := rfl
@[simp] theorem hardReset_draws (cfg : Config) : (hardReset cfg s).draws = s.draws := rfl

@[simp] theorem State.setLatch_latch (n m : SwitchName) (v : Bool) :
    (s.setLatch n v).latch m = if n = m then v else s.latch m := keyedGet_keyedSet ..

@[simp] theorem State.drawLatch_latch (h : HandlerId) (a : Address) (cyc : C) (n m : SwitchName) :
    (s.drawLatch h a cyc n).latch m = if n = m then Config.freeBit h n (s.draw a cyc) else s.latch m := keyedGet_keyedSet ..

end Sys2Proof.Machine
end

