-- ==== Sys2Proof/Laws/Ops.lean ====
section
/-!
SUPPORT. For each shared operation, once, what it can do to each part of the state.
-/
namespace Sys2Proof.Machine

variable {C : Type}

variable (cfg : Config) (e : SwitchEntry) (a : Address) (s : State C)

section refresh

@[simp] theorem refreshStatus_latches : (refreshStatus cfg e s).latches = s.latches := by
  unfold refreshStatus; split <;> rfl
@[simp] theorem refreshStatus_latch (n : SwitchName) : (refreshStatus cfg e s).latch n = s.latch n := by
  simp [State.latch]
@[simp] theorem refreshStatus_banked : (refreshStatus cfg e s).banked = s.banked := by
  unfold refreshStatus; split <;> rfl
@[simp] theorem refreshStatus_log : (refreshStatus cfg e s).log = s.log := by
  unfold refreshStatus; split <;> rfl
@[simp] theorem refreshStatus_returned : (refreshStatus cfg e s).returned = s.returned := by
  unfold refreshStatus; split <;> rfl

theorem refreshStatus_videoKept : VideoKept s (refreshStatus cfg e s) := by
  unfold refreshStatus; split <;> exact ⟨rfl, rfl, rfl, rfl⟩

theorem refreshStatus_noCall : NoCall s (refreshStatus cfg e s) := by
  unfold refreshStatus; split <;> exact ⟨rfl, rfl, rfl⟩

/-- The refresh writes the entry's status byte and no other. -/
theorem refreshStatus_read? (k : Nat) :
    (refreshStatus cfg e s).status.read? k =
      if e.statusAddress.map BitVec.toNat = some k then some (sentinel cfg (s.latch e.name)) else s.status.read? k := by
  unfold refreshStatus; split <;> next h => simp [h, Memory.read?_write]

end refresh

section coarse

variable (n : SwitchName) (v : Bool)

@[simp] theorem writeCoarse_banked : (writeCoarse cfg n v s).banked = s.banked := by
  unfold writeCoarse; split <;> simp
@[simp] theorem writeCoarse_log : (writeCoarse cfg n v s).log = s.log := by
  unfold writeCoarse; split <;> simp
@[simp] theorem writeCoarse_returned : (writeCoarse cfg n v s).returned = s.returned := by
  unfold writeCoarse; split <;> simp

/-- The coarse write reaches the latch of its name, when the table has it, and no other. -/
theorem writeCoarse_latch (m : SwitchName) :
    (writeCoarse cfg n v s).latch m = if (entryNamed cfg.table n).isSome ∧ n = m then v else s.latch m := by
  unfold writeCoarse
  split <;> next h => simp [h]

theorem VideoKept.trans {s t u : State C} (h : VideoKept s t) (h' : VideoKept t u) : VideoKept s u :=
  ⟨h'.1.trans h.1, h'.2.trans h.2, h'.3.trans h.3, h'.4.trans h.4⟩

theorem NoCall.trans {s t u : State C} (h : NoCall s t) (h' : NoCall t u) : NoCall s u :=
  ⟨h'.1.trans h.1, h'.2.trans h.2, h'.3.trans h.3⟩

theorem writeCoarse_videoKept : VideoKept s (writeCoarse cfg n v s) := by
  unfold writeCoarse
  split
  · exact VideoKept.trans (t := s.setLatch n v) ⟨rfl, rfl, rfl, rfl⟩ (refreshStatus_videoKept ..)
  · exact ⟨rfl, rfl, rfl, rfl⟩

theorem writeCoarse_noCall : NoCall s (writeCoarse cfg n v s) := by
  unfold writeCoarse
  split
  · exact NoCall.trans (t := s.setLatch n v) ⟨rfl, rfl, rfl⟩ (refreshStatus_noCall ..)
  · exact ⟨rfl, rfl, rfl⟩

end coarse

section bankedRam

theorem bankedRam_banked : (bankedRam cfg a s).banked = bankVector (bankFragment a) := by
  simp [bankedRam]
@[simp] theorem bankedRam_log : (bankedRam cfg a s).log = s.log := by simp [bankedRam]
@[simp] theorem bankedRam_returned : (bankedRam cfg a s).returned = s.returned := by simp [bankedRam]

theorem bankedRam_videoKept : VideoKept s (bankedRam cfg a s) := by
  have h : VideoKept s (s.setBanked (bankVector (bankFragment a))) := ⟨rfl, rfl, rfl, rfl⟩
  exact (h.trans (writeCoarse_videoKept cfg _ .bsrBank2 _)).trans (writeCoarse_videoKept cfg _ .bsrReadRam _)

theorem bankedRam_noCall : NoCall s (bankedRam cfg a s) := by
  have h : NoCall s (s.setBanked (bankVector (bankFragment a))) := ⟨rfl, rfl, rfl⟩
  exact (h.trans (writeCoarse_noCall cfg _ .bsrBank2 _)).trans (writeCoarse_noCall cfg _ .bsrReadRam _)

/-- The BankedRAM decode writes the two coarse latches and no other. -/
theorem bankedRam_latch_of_ne (m : SwitchName) (h2 : m ≠ .bsrBank2) (hr : m ≠ .bsrReadRam) :
    (bankedRam cfg a s).latch m = s.latch m := by
  simp [bankedRam, writeCoarse_latch, h2.symm, hr.symm]

/-- The status region after the BankedRAM decode over the reference table. -/
theorem bankedRam_read? (k : Nat) :
    (bankedRam refConfig a s).status.read? k =
      if k = 0xC012 then some (sentinel refConfig (readRamActive (bankFragment a)))
      else if k = 0xC011 then some (sentinel refConfig (bankTwoSelected (bankFragment a)))
      else s.status.read? k := by
  have e1 : entryNamed refConfig.table .bsrBank2 = some ⟨.bsrBank2, none, none, some 0xC011, false, none⟩ := rfl
  have e2 : entryNamed refConfig.table .bsrReadRam = some ⟨.bsrReadRam, none, none, some 0xC012, false, none⟩ := rfl
  simp only [bankedRam, writeCoarse, e1, e2, refreshStatus_read?]
  simp only [State.setLatch_status, refreshStatus_read?, Option.map]
  simp [eq_comm]

/-- The two coarse latches after the BankedRAM decode over the reference table. -/
theorem bankedRam_coarse :
    (bankedRam refConfig a s).latch .bsrBank2 = bankTwoSelected (bankFragment a) ∧
      (bankedRam refConfig a s).latch .bsrReadRam = readRamActive (bankFragment a) := by
  have e1 : (entryNamed refConfig.table .bsrBank2).isSome = true := rfl
  have e2 : (entryNamed refConfig.table .bsrReadRam).isSome = true := rfl
  simp [bankedRam, writeCoarse_latch, e1, e2]

end bankedRam

section external

variable (h : HandlerId) (cyc : C)

/-- Drawing a list of latches: every part of the state but the latches and the draw counter is kept. -/
theorem foldl_drawLatch_frame (es : List SwitchEntry) (s : State C) :
    let t := es.foldl (fun s e => s.drawLatch h a cyc e.name) s
    VideoKept s t ∧ NoCall s t ∧ t.banked = s.banked ∧ t.status = s.status ∧ t.log = s.log ∧ t.returned = s.returned := by
  induction es generalizing s with
  | nil => exact ⟨⟨rfl, rfl, rfl, rfl⟩, ⟨rfl, rfl, rfl⟩, rfl, rfl, rfl, rfl⟩
  | cons e es ih =>
    obtain ⟨h1, h2, h3, h4, h5, h6⟩ := ih (s.drawLatch h a cyc e.name)
    have hv : VideoKept s (s.drawLatch h a cyc e.name) := ⟨rfl, rfl, rfl, rfl⟩
    have hc : NoCall s (s.drawLatch h a cyc e.name) := ⟨rfl, rfl, rfl⟩
    exact ⟨hv.trans h1, hc.trans h2, h3, h4, h5, h6⟩

/-- Drawing a list of latches leaves every latch of another name. -/
theorem foldl_drawLatch_latch (es : List SwitchEntry) (s : State C) (n : SwitchName) (hn : ∀ e ∈ es, e.name ≠ n) :
    (es.foldl (fun s e => s.drawLatch h a cyc e.name) s).latch n = s.latch n := by
  induction es generalizing s with
  | nil => rfl
  | cons e es ih =>
    rw [List.foldl_cons, ih _ (fun e' he' => hn e' (List.mem_cons_of_mem _ he')), State.drawLatch_latch,
      if_neg (hn e List.mem_cons_self)]

/-- Drawing latches that the list of latches carries keeps its names. -/
theorem foldl_drawLatch_names (es : List SwitchEntry) (s : State C)
    (hn : ∀ e ∈ es, e.name ∈ s.latches.map Prod.fst) :
    (es.foldl (fun s e => s.drawLatch h a cyc e.name) s).latches.map Prod.fst = s.latches.map Prod.fst := by
  induction es generalizing s with
  | nil => rfl
  | cons e es ih =>
    have hk : (s.drawLatch h a cyc e.name).latches.map Prod.fst = s.latches.map Prod.fst :=
      keyedSet_keys _ _ _ (hn e List.mem_cons_self)
    rw [List.foldl_cons, ih _ (fun e' he' => hk ▸ hn e' (List.mem_cons_of_mem _ he')), hk]

/-- The call of an external handler: the record is exact, the rest of the block is kept (R243, R250). -/
theorem invokeExternal_frame :
    let t := invokeExternal cfg h a cyc s
    VideoKept s t ∧ t.invoked = s.invoked ++ [⟨h, a, cyc⟩] ∧ t.banked = s.banked ∧ t.status = s.status ∧
      t.log = s.log ∧ t.returned = s.returned ∧
      (h = .speaker → t.outbound = s.outbound ++ [.click cyc]) ∧
      (h ≠ .speaker → ∃ codes : List Nat, t.outbound = s.outbound ++ codes.map (.emitted h)) := by
  obtain ⟨h1, h2, h3, h4, h5, h6⟩ :=
    foldl_drawLatch_frame a h cyc (ownEntries cfg.table h) ((s.recordCall ⟨h, a, cyc⟩).drawPeripheral h a cyc)
  have hv : VideoKept s ((s.recordCall ⟨h, a, cyc⟩).drawPeripheral h a cyc) := ⟨rfl, rfl, rfl, rfl⟩
  cases h <;>
    refine ⟨VideoKept.trans (hv.trans h1) ⟨rfl, rfl, rfl, rfl⟩, h2.invoked, h3, h4, h5, h6,
      fun hs => ?_, fun hs => ?_⟩ <;>
    first
    | exact absurd rfl hs
    | (cases hs; done)
    | exact congrArg (· ++ _) h2.outbound
    | exact ⟨_, congrArg (· ++ _) h2.outbound⟩

/-- The call of an external handler leaves every latch that is not its own (R243(b)). -/
theorem invokeExternal_latch (n : SwitchName) (hn : ∀ e ∈ ownEntries cfg.table h, e.name ≠ n) :
    (invokeExternal cfg h a cyc s).latch n = s.latch n := by
  have := foldl_drawLatch_latch a h cyc (ownEntries cfg.table h) ((s.recordCall ⟨h, a, cyc⟩).drawPeripheral h a cyc) n hn
  cases h <;> exact this

/-- The call of an external handler writes no other handler's state (R243(a)). -/
theorem invokeExternal_peripherals (h' : HandlerId) (hne : h ≠ h') :
    keyedGet 0 (invokeExternal cfg h a cyc s).peripherals h' = keyedGet 0 s.peripherals h' := by
  have := (foldl_drawLatch_frame a h cyc (ownEntries cfg.table h)
    ((s.recordCall ⟨h, a, cyc⟩).drawPeripheral h a cyc)).2.1.peripherals
  have h2 : (invokeExternal cfg h a cyc s).peripherals = 
      keyedSet s.peripherals h (Config.freePeripheral h ((s.recordCall ⟨h, a, cyc⟩).draw a cyc)) := by
    cases h <;> exact this
  rw [h2, keyedGet_keyedSet, if_neg hne]

end external

section invoke

variable (h : HandlerId) (cyc : C)

theorem invoke_of_external (hne : h ≠ .bankedRam) : invoke cfg h a cyc s = invokeExternal cfg h a cyc s := by
  cases h <;> first | rfl | exact absurd rfl hne

theorem invoke_videoKept : VideoKept s (invoke cfg h a cyc s) := by
  by_cases hb : h = .bankedRam
  · subst hb; exact bankedRam_videoKept cfg a s
  · rw [invoke_of_external cfg a s h cyc hb]; exact (invokeExternal_frame cfg a s h cyc).1

@[simp] theorem invoke_log : (invoke cfg h a cyc s).log = s.log := by
  by_cases hb : h = .bankedRam
  · subst hb; exact bankedRam_log cfg a s
  · rw [invoke_of_external cfg a s h cyc hb]; exact (invokeExternal_frame cfg a s h cyc).2.2.2.2.1

@[simp] theorem invoke_returned : (invoke cfg h a cyc s).returned = s.returned := by
  by_cases hb : h = .bankedRam
  · subst hb; exact bankedRam_returned cfg a s
  · rw [invoke_of_external cfg a s h cyc hb]; exact (invokeExternal_frame cfg a s h cyc).2.2.2.2.2.1

/-- The call of a handler changes only the latches that it may write. -/
theorem invoke_latches : LatchesKeptBut (HandlerMayWrite cfg h) s (invoke cfg h a cyc s) := by
  intro n hn
  by_cases hb : h = .bankedRam
  · subst hb
    simp only [HandlerMayWrite, not_or] at hn
    exact bankedRam_latch_of_ne cfg a s n hn.1 hn.2
  · rw [invoke_of_external cfg a s h cyc hb]
    refine invokeExternal_latch cfg a s h cyc n fun e he hen => hn ?_
    cases h <;> first | exact absurd rfl hb | exact ⟨e, he, hen⟩

end invoke

section dispatch

variable (k : Kind) (cyc : C)

/-- Dispatch by the three outcomes of `Lookup` (R142). -/
theorem dispatch_of_none (hl : lookup cfg.table a = none) :
    dispatch cfg a k cyc s = s.raise (.unknownSoftSwitch a k cyc) := by
  simp [dispatch, hl]

theorem dispatch_of_off (hl : lookup cfg.table a = some (e, .off)) :
    dispatch cfg a k cyc s = triggeredAccess cfg e false a k cyc s := by
  simp [dispatch, hl]

theorem dispatch_of_on (hl : lookup cfg.table a = some (e, .on)) :
    dispatch cfg a k cyc s = triggeredAccess cfg e true a k cyc s := by
  simp [dispatch, hl]

theorem dispatch_of_status (hl : lookup cfg.table a = some (e, .status)) :
    dispatch cfg a k cyc s = statusAccess cfg e a cyc s := by
  simp [dispatch, hl]

theorem triggeredAccess_videoKept (v : Bool) : VideoKept s (triggeredAccess cfg e v a k cyc s) := by
  unfold triggeredAccess
  split
  · refine VideoKept.trans ?_ (refreshStatus_videoKept ..)
    split
    · exact invoke_videoKept ..
    · exact ⟨rfl, rfl, rfl, rfl⟩
  · refine VideoKept.trans ?_ (refreshStatus_videoKept ..)
    split <;> exact ⟨rfl, rfl, rfl, rfl⟩

theorem statusAccess_videoKept : VideoKept s (statusAccess cfg e a cyc s) := by
  unfold statusAccess
  split
  · exact invoke_videoKept ..
  · exact refreshStatus_videoKept ..

theorem triggeredAccess_log (v : Bool) : (triggeredAccess cfg e v a k cyc s).log = s.log := by
  unfold triggeredAccess
  split <;> rw [refreshStatus_log] <;> split <;> simp

theorem statusAccess_log : (statusAccess cfg e a cyc s).log = s.log := by
  unfold statusAccess
  split <;> simp

theorem triggeredAccess_returned (v : Bool) : (triggeredAccess cfg e v a k cyc s).returned = s.returned := by
  unfold triggeredAccess
  split <;> rw [refreshStatus_returned] <;> split <;> simp

theorem statusAccess_returned : (statusAccess cfg e a cyc s).returned = s.returned := by
  unfold statusAccess
  split <;> simp

/-- Dispatch never reads or writes the flash counter, the rest of the trace or an output (R142). -/
theorem dispatch_videoKept : VideoKept s (dispatch cfg a k cyc s) := by
  unfold dispatch
  split
  · exact ⟨rfl, rfl, rfl, rfl⟩
  · exact triggeredAccess_videoKept ..
  · exact triggeredAccess_videoKept ..
  · exact statusAccess_videoKept ..

/-- Dispatch returns nothing (R130). -/
@[simp] theorem dispatch_returned : (dispatch cfg a k cyc s).returned = s.returned := by
  unfold dispatch
  split
  · rfl
  · exact triggeredAccess_returned ..
  · exact triggeredAccess_returned ..
  · exact statusAccess_returned ..

/-- Dispatch raises one event at an unmapped address and none elsewhere (R376). -/
theorem dispatch_log :
    (dispatch cfg a k cyc s).log =
      s.log ++ (if lookup cfg.table a = none then [.unknownSoftSwitch a k cyc] else []) := by
  unfold dispatch
  split
  · next h => simp [h]
  · next h => simp [h, triggeredAccess_log]
  · next h => simp [h, triggeredAccess_log]
  · next h => simp [h, statusAccess_log]

end dispatch

section bus

variable (cyc : C)

/-- Sampling the data of a read returns one byte and draws at most one free value; it changes nothing else (R150). -/
theorem sample_eq : ∃ b d, sample cfg a cyc s = { s with returned := s.returned ++ [b], draws := d } := by
  unfold sample
  split
  · exact ⟨_, s.draws, rfl⟩
  · exact ⟨_, _, rfl⟩

/-- A read of a core-owned address that holds a byte returns that byte. -/
theorem sample_of_held (b : Byte) (hb : heldByte cfg a s = some b) : sample cfg a cyc s = s.returnByte b := by
  simp [sample, hb]

/-- A read of a peripheral-owned address returns a free value. -/
theorem sample_of_free (hb : heldByte cfg a s = none) : sample cfg a cyc s = s.returnFree a cyc := by
  simp [sample, hb]

@[simp] theorem sample_latch (n : SwitchName) : (sample cfg a cyc s).latch n = s.latch n := by
  obtain ⟨b, d, h⟩ := sample_eq cfg a s cyc; rw [h]; rfl
@[simp] theorem sample_latches : (sample cfg a cyc s).latches = s.latches := by
  obtain ⟨b, d, h⟩ := sample_eq cfg a s cyc; rw [h]
@[simp] theorem sample_status : (sample cfg a cyc s).status = s.status := by
  obtain ⟨b, d, h⟩ := sample_eq cfg a s cyc; rw [h]
@[simp] theorem sample_banked : (sample cfg a cyc s).banked = s.banked := by
  obtain ⟨b, d, h⟩ := sample_eq cfg a s cyc; rw [h]
@[simp] theorem sample_log : (sample cfg a cyc s).log = s.log := by
  obtain ⟨b, d, h⟩ := sample_eq cfg a s cyc; rw [h]

theorem sample_videoKept : VideoKept s (sample cfg a cyc s) := by
  obtain ⟨b, d, h⟩ := sample_eq cfg a s cyc; rw [h]; exact ⟨rfl, rfl, rfl, rfl⟩

theorem sample_noCall : NoCall s (sample cfg a cyc s) := by
  obtain ⟨b, d, h⟩ := sample_eq cfg a s cyc; rw [h]; exact ⟨rfl, rfl, rfl⟩

/-- A bus operation is Dispatch, and for a read the sampling of its data after it (R150, R151). -/
theorem busOp_eq (acc : BusAccess C) :
    busOp cfg a acc s =
      match acc with
      | .rd c => sample cfg a c (dispatch cfg a .rd c s)
      | .wr _ c => dispatch cfg a .wr c s := by
  cases acc <;> rfl

theorem busOp_latch (acc : BusAccess C) (n : SwitchName) :
    (busOp cfg a acc s).latch n = (dispatch cfg a acc.kind acc.cycle s).latch n := by
  cases acc <;> simp [busOp_eq, BusAccess.kind, BusAccess.cycle]
theorem busOp_latches (acc : BusAccess C) :
    (busOp cfg a acc s).latches = (dispatch cfg a acc.kind acc.cycle s).latches := by
  cases acc <;> simp [busOp_eq, BusAccess.kind, BusAccess.cycle]
theorem busOp_status (acc : BusAccess C) :
    (busOp cfg a acc s).status = (dispatch cfg a acc.kind acc.cycle s).status := by
  cases acc <;> simp [busOp_eq, BusAccess.kind, BusAccess.cycle]
theorem busOp_banked (acc : BusAccess C) :
    (busOp cfg a acc s).banked = (dispatch cfg a acc.kind acc.cycle s).banked := by
  cases acc <;> simp [busOp_eq, BusAccess.kind, BusAccess.cycle]
theorem busOp_log (acc : BusAccess C) :
    (busOp cfg a acc s).log = (dispatch cfg a acc.kind acc.cycle s).log := by
  cases acc <;> simp [busOp_eq, BusAccess.kind, BusAccess.cycle]

theorem busOp_videoKept (acc : BusAccess C) : VideoKept s (busOp cfg a acc s) := by
  cases acc
  · exact (dispatch_videoKept ..).trans (sample_videoKept ..)
  · exact dispatch_videoKept ..

/-- A bus operation is Dispatch, but for the byte that a read returns and the free value that it may draw. -/
theorem busOp_shape (acc : BusAccess C) :
    ∃ l d, busOp cfg a acc s =
        { dispatch cfg a acc.kind acc.cycle s with returned := s.returned ++ l, draws := d } ∧
      ReadReturns acc (fun _ => True) s (busOp cfg a acc s) := by
  cases acc with
  | wr b c =>
    have h := dispatch_returned cfg a s .wr c
    refine ⟨[], (dispatch cfg a .wr c s).draws, ?_, by simp [busOp_eq, ReadReturns]⟩
    show dispatch cfg a .wr c s = _
    rw [List.append_nil, ← h]; rfl
  | rd c =>
    obtain ⟨b, d, he⟩ := sample_eq cfg a (dispatch cfg a .rd c s) c
    exact ⟨[b], d, by simp [busOp_eq, BusAccess.kind, BusAccess.cycle, he], ⟨b, trivial, by simp [busOp_eq, he]⟩⟩

end bus

section video

/-- A decode call returns one output and raises at most one event; it changes nothing else (R260, R262). -/
theorem decodeRequest_eq (d : DecoderKind) (snap : List Byte) (render : Shape → DecodeOutput) :
    ∃ o es, decodeRequest d snap render s = { s with outputs := s.outputs ++ [o], log := s.log ++ es } ∧
      es.length ≤ 1 := by
  unfold decodeRequest
  split
  · exact ⟨.empty, [], by simp [State.emit], by simp⟩
  · split
    · exact ⟨_, [_], rfl, by simp⟩
    · next sh _ => exact ⟨render sh, [], by simp [State.emit], by simp⟩

/-- A decode call on a snapshot of a known length. -/
theorem decodeRequest_of_classify (d : DecoderKind) (snap : List Byte) (render : Shape → DecodeOutput) (sh : Shape)
    (h0 : snap.length ≠ 0) (h : classify d snap.length = some sh) :
    decodeRequest d snap render s = s.emit (render sh) := by
  simp [decodeRequest, h0, h]

/-- A tick touches the flash counter and phase only (R298). -/
theorem flashTick_eq : ∃ n p, flashTick cfg s = { s with flashCount := n, flashPhase := p } := by
  unfold flashTick
  split
  · exact ⟨_, _, rfl⟩
  · exact ⟨_, s.flashPhase, rfl⟩

end video

end Sys2Proof.Machine
end

