-- ==== Sys2Proof/Laws/PerInstr.lean ====
section
/-!
SUPPORT. One lemma per constructor of `Instr`: the address that the encoder writes for a bus row is the address at which
the switch table gives that row's switch its role (spec/30_encoding.md R91, 41_switch_table.md R160).
-/
namespace Sys2Proof.Laws.EncodedRow

/-- For a bus row, the table's `Lookup` of the encoded address gives the row's switch and role. -/
def Statement (i : Instr) : Prop :=
  ∀ n role, i.switchRole = some (n, role) →
    ∃ a acc, encode i = .bus a acc ∧ (Machine.lookup Machine.refTable a).map (fun h => (h.1.name, h.2)) = some (n, role)

theorem store80Off (acc : BusAccess) : Statement (.store80Off acc) := by
  rintro _ _ ⟨⟩; exact ⟨0xC000, acc, rfl, by decide⟩
theorem store80On (acc : BusAccess) : Statement (.store80On acc) := by
  rintro _ _ ⟨⟩; exact ⟨0xC001, acc, rfl, by decide⟩
theorem ramRdOff (acc : BusAccess) : Statement (.ramRdOff acc) := by
  rintro _ _ ⟨⟩; exact ⟨0xC002, acc, rfl, by decide⟩
theorem ramRdOn (acc : BusAccess) : Statement (.ramRdOn acc) := by
  rintro _ _ ⟨⟩; exact ⟨0xC003, acc, rfl, by decide⟩
theorem ramWrtOff (acc : BusAccess) : Statement (.ramWrtOff acc) := by
  rintro _ _ ⟨⟩; exact ⟨0xC004, acc, rfl, by decide⟩
theorem ramWrtOn (acc : BusAccess) : Statement (.ramWrtOn acc) := by
  rintro _ _ ⟨⟩; exact ⟨0xC005, acc, rfl, by decide⟩
theorem intCxRomOff (acc : BusAccess) : Statement (.intCxRomOff acc) := by
  rintro _ _ ⟨⟩; exact ⟨0xC006, acc, rfl, by decide⟩
theorem intCxRomOn (acc : BusAccess) : Statement (.intCxRomOn acc) := by
  rintro _ _ ⟨⟩; exact ⟨0xC007, acc, rfl, by decide⟩
theorem altZpOff (acc : BusAccess) : Statement (.altZpOff acc) := by
  rintro _ _ ⟨⟩; exact ⟨0xC008, acc, rfl, by decide⟩
theorem altZpOn (acc : BusAccess) : Statement (.altZpOn acc) := by
  rintro _ _ ⟨⟩; exact ⟨0xC009, acc, rfl, by decide⟩
theorem slotC3RomOff (acc : BusAccess) : Statement (.slotC3RomOff acc) := by
  rintro _ _ ⟨⟩; exact ⟨0xC00A, acc, rfl, by decide⟩
theorem slotC3RomOn (acc : BusAccess) : Statement (.slotC3RomOn acc) := by
  rintro _ _ ⟨⟩; exact ⟨0xC00B, acc, rfl, by decide⟩
theorem column80Off (acc : BusAccess) : Statement (.column80Off acc) := by
  rintro _ _ ⟨⟩; exact ⟨0xC00C, acc, rfl, by decide⟩
theorem column80On (acc : BusAccess) : Statement (.column80On acc) := by
  rintro _ _ ⟨⟩; exact ⟨0xC00D, acc, rfl, by decide⟩
theorem altCharSetOff (acc : BusAccess) : Statement (.altCharSetOff acc) := by
  rintro _ _ ⟨⟩; exact ⟨0xC00E, acc, rfl, by decide⟩
theorem altCharSetOn (acc : BusAccess) : Statement (.altCharSetOn acc) := by
  rintro _ _ ⟨⟩; exact ⟨0xC00F, acc, rfl, by decide⟩
theorem kbrdStrobeStatus (acc : BusAccess) : Statement (.kbrdStrobeStatus acc) := by
  rintro _ _ ⟨⟩; exact ⟨0xC010, acc, rfl, by decide⟩
theorem bsrBank2Status (acc : BusAccess) : Statement (.bsrBank2Status acc) := by
  rintro _ _ ⟨⟩; exact ⟨0xC011, acc, rfl, by decide⟩
theorem bsrReadRamStatus (acc : BusAccess) : Statement (.bsrReadRamStatus acc) := by
  rintro _ _ ⟨⟩; exact ⟨0xC012, acc, rfl, by decide⟩
theorem ramRdStatus (acc : BusAccess) : Statement (.ramRdStatus acc) := by
  rintro _ _ ⟨⟩; exact ⟨0xC013, acc, rfl, by decide⟩
theorem ramWrtStatus (acc : BusAccess) : Statement (.ramWrtStatus acc) := by
  rintro _ _ ⟨⟩; exact ⟨0xC014, acc, rfl, by decide⟩
theorem intCxRomStatus (acc : BusAccess) : Statement (.intCxRomStatus acc) := by
  rintro _ _ ⟨⟩; exact ⟨0xC015, acc, rfl, by decide⟩
theorem altZpStatus (acc : BusAccess) : Statement (.altZpStatus acc) := by
  rintro _ _ ⟨⟩; exact ⟨0xC016, acc, rfl, by decide⟩
theorem slotC3RomStatus (acc : BusAccess) : Statement (.slotC3RomStatus acc) := by
  rintro _ _ ⟨⟩; exact ⟨0xC017, acc, rfl, by decide⟩
theorem store80Status (acc : BusAccess) : Statement (.store80Status acc) := by
  rintro _ _ ⟨⟩; exact ⟨0xC018, acc, rfl, by decide⟩
theorem textStatus (acc : BusAccess) : Statement (.textStatus acc) := by
  rintro _ _ ⟨⟩; exact ⟨0xC01A, acc, rfl, by decide⟩
theorem mixedStatus (acc : BusAccess) : Statement (.mixedStatus acc) := by
  rintro _ _ ⟨⟩; exact ⟨0xC01B, acc, rfl, by decide⟩
theorem page2Status (acc : BusAccess) : Statement (.page2Status acc) := by
  rintro _ _ ⟨⟩; exact ⟨0xC01C, acc, rfl, by decide⟩
theorem hiresStatus (acc : BusAccess) : Statement (.hiresStatus acc) := by
  rintro _ _ ⟨⟩; exact ⟨0xC01D, acc, rfl, by decide⟩
theorem altCharSetStatus (acc : BusAccess) : Statement (.altCharSetStatus acc) := by
  rintro _ _ ⟨⟩; exact ⟨0xC01E, acc, rfl, by decide⟩
theorem column80Status (acc : BusAccess) : Statement (.column80Status acc) := by
  rintro _ _ ⟨⟩; exact ⟨0xC01F, acc, rfl, by decide⟩
theorem speakerOff (acc : BusAccess) : Statement (.speakerOff acc) := by
  rintro _ _ ⟨⟩; exact ⟨0xC030, acc, rfl, by decide⟩
theorem speakerOn (acc : BusAccess) : Statement (.speakerOn acc) := by
  rintro _ _ ⟨⟩; exact ⟨0xC031, acc, rfl, by decide⟩
theorem textOff (acc : BusAccess) : Statement (.textOff acc) := by
  rintro _ _ ⟨⟩; exact ⟨0xC050, acc, rfl, by decide⟩
theorem textOn (acc : BusAccess) : Statement (.textOn acc) := by
  rintro _ _ ⟨⟩; exact ⟨0xC051, acc, rfl, by decide⟩
theorem mixedOff (acc : BusAccess) : Statement (.mixedOff acc) := by
  rintro _ _ ⟨⟩; exact ⟨0xC052, acc, rfl, by decide⟩
theorem mixedOn (acc : BusAccess) : Statement (.mixedOn acc) := by
  rintro _ _ ⟨⟩; exact ⟨0xC053, acc, rfl, by decide⟩
theorem page2Off (acc : BusAccess) : Statement (.page2Off acc) := by
  rintro _ _ ⟨⟩; exact ⟨0xC054, acc, rfl, by decide⟩
theorem page2On (acc : BusAccess) : Statement (.page2On acc) := by
  rintro _ _ ⟨⟩; exact ⟨0xC055, acc, rfl, by decide⟩
theorem hiresOff (acc : BusAccess) : Statement (.hiresOff acc) := by
  rintro _ _ ⟨⟩; exact ⟨0xC056, acc, rfl, by decide⟩
theorem hiresOn (acc : BusAccess) : Statement (.hiresOn acc) := by
  rintro _ _ ⟨⟩; exact ⟨0xC057, acc, rfl, by decide⟩
theorem pb0Status (acc : BusAccess) : Statement (.pb0Status acc) := by
  rintro _ _ ⟨⟩; exact ⟨0xC061, acc, rfl, by decide⟩
theorem pb1Status (acc : BusAccess) : Statement (.pb1Status acc) := by
  rintro _ _ ⟨⟩; exact ⟨0xC062, acc, rfl, by decide⟩
theorem pb2Status (acc : BusAccess) : Statement (.pb2Status acc) := by
  rintro _ _ ⟨⟩; exact ⟨0xC063, acc, rfl, by decide⟩
theorem paddle0Status (acc : BusAccess) : Statement (.paddle0Status acc) := by
  rintro _ _ ⟨⟩; exact ⟨0xC064, acc, rfl, by decide⟩
theorem paddle1Status (acc : BusAccess) : Statement (.paddle1Status acc) := by
  rintro _ _ ⟨⟩; exact ⟨0xC065, acc, rfl, by decide⟩
theorem paddle2Status (acc : BusAccess) : Statement (.paddle2Status acc) := by
  rintro _ _ ⟨⟩; exact ⟨0xC066, acc, rfl, by decide⟩
theorem paddle3Status (acc : BusAccess) : Statement (.paddle3Status acc) := by
  rintro _ _ ⟨⟩; exact ⟨0xC067, acc, rfl, by decide⟩
theorem ptrigStatus (acc : BusAccess) : Statement (.ptrigStatus acc) := by
  rintro _ _ ⟨⟩; exact ⟨0xC070, acc, rfl, by decide⟩
theorem bsrSel0Off (acc : BusAccess) : Statement (.bsrSel0Off acc) := by
  rintro _ _ ⟨⟩; exact ⟨0xC080, acc, rfl, by decide⟩
theorem bsrSel0On (acc : BusAccess) : Statement (.bsrSel0On acc) := by
  rintro _ _ ⟨⟩; exact ⟨0xC081, acc, rfl, by decide⟩
theorem bsrSel1Off (acc : BusAccess) : Statement (.bsrSel1Off acc) := by
  rintro _ _ ⟨⟩; exact ⟨0xC082, acc, rfl, by decide⟩
theorem bsrSel1On (acc : BusAccess) : Statement (.bsrSel1On acc) := by
  rintro _ _ ⟨⟩; exact ⟨0xC083, acc, rfl, by decide⟩
theorem bsrSel2Off (acc : BusAccess) : Statement (.bsrSel2Off acc) := by
  rintro _ _ ⟨⟩; exact ⟨0xC084, acc, rfl, by decide⟩
theorem bsrSel2On (acc : BusAccess) : Statement (.bsrSel2On acc) := by
  rintro _ _ ⟨⟩; exact ⟨0xC085, acc, rfl, by decide⟩
theorem bsrSel3Off (acc : BusAccess) : Statement (.bsrSel3Off acc) := by
  rintro _ _ ⟨⟩; exact ⟨0xC086, acc, rfl, by decide⟩
theorem bsrSel3On (acc : BusAccess) : Statement (.bsrSel3On acc) := by
  rintro _ _ ⟨⟩; exact ⟨0xC087, acc, rfl, by decide⟩
theorem bsrSel4Off (acc : BusAccess) : Statement (.bsrSel4Off acc) := by
  rintro _ _ ⟨⟩; exact ⟨0xC088, acc, rfl, by decide⟩
theorem bsrSel4On (acc : BusAccess) : Statement (.bsrSel4On acc) := by
  rintro _ _ ⟨⟩; exact ⟨0xC089, acc, rfl, by decide⟩
theorem bsrSel5Off (acc : BusAccess) : Statement (.bsrSel5Off acc) := by
  rintro _ _ ⟨⟩; exact ⟨0xC08A, acc, rfl, by decide⟩
theorem bsrSel5On (acc : BusAccess) : Statement (.bsrSel5On acc) := by
  rintro _ _ ⟨⟩; exact ⟨0xC08B, acc, rfl, by decide⟩
theorem bsrSel6Off (acc : BusAccess) : Statement (.bsrSel6Off acc) := by
  rintro _ _ ⟨⟩; exact ⟨0xC08C, acc, rfl, by decide⟩
theorem bsrSel6On (acc : BusAccess) : Statement (.bsrSel6On acc) := by
  rintro _ _ ⟨⟩; exact ⟨0xC08D, acc, rfl, by decide⟩
theorem bsrSel7Off (acc : BusAccess) : Statement (.bsrSel7Off acc) := by
  rintro _ _ ⟨⟩; exact ⟨0xC08E, acc, rfl, by decide⟩
theorem bsrSel7On (acc : BusAccess) : Statement (.bsrSel7On acc) := by
  rintro _ _ ⟨⟩; exact ⟨0xC08F, acc, rfl, by decide⟩
theorem drvSm0Off (acc : BusAccess) : Statement (.drvSm0Off acc) := by
  rintro _ _ ⟨⟩; exact ⟨0xC0E0, acc, rfl, by decide⟩
theorem drvSm0On (acc : BusAccess) : Statement (.drvSm0On acc) := by
  rintro _ _ ⟨⟩; exact ⟨0xC0E1, acc, rfl, by decide⟩
theorem drvSm1Off (acc : BusAccess) : Statement (.drvSm1Off acc) := by
  rintro _ _ ⟨⟩; exact ⟨0xC0E2, acc, rfl, by decide⟩
theorem drvSm1On (acc : BusAccess) : Statement (.drvSm1On acc) := by
  rintro _ _ ⟨⟩; exact ⟨0xC0E3, acc, rfl, by decide⟩
theorem drvSm2Off (acc : BusAccess) : Statement (.drvSm2Off acc) := by
  rintro _ _ ⟨⟩; exact ⟨0xC0E4, acc, rfl, by decide⟩
theorem drvSm2On (acc : BusAccess) : Statement (.drvSm2On acc) := by
  rintro _ _ ⟨⟩; exact ⟨0xC0E5, acc, rfl, by decide⟩
theorem drvSm3Off (acc : BusAccess) : Statement (.drvSm3Off acc) := by
  rintro _ _ ⟨⟩; exact ⟨0xC0E6, acc, rfl, by decide⟩
theorem drvSm3On (acc : BusAccess) : Statement (.drvSm3On acc) := by
  rintro _ _ ⟨⟩; exact ⟨0xC0E7, acc, rfl, by decide⟩
theorem unmapped (address : Address) (access : BusAccess) : Statement (.unmapped address access) := fun _ _ h => nomatch h
theorem decText960 (snapshot : List Byte) (alt : Bool) (flash : FlashArg) (mixed : Bool) (color : Bool) : Statement (.decText960 snapshot alt flash mixed color) := fun _ _ h => nomatch h
theorem decText1920 (snapshot : List Byte) (alt : Bool) (flash : FlashArg) (mixed : Bool) (color : Bool) : Statement (.decText1920 snapshot alt flash mixed color) := fun _ _ h => nomatch h
theorem decLores800 (snapshot : List Byte) (color : Bool) : Statement (.decLores800 snapshot color) := fun _ _ h => nomatch h
theorem decLores960 (snapshot : List Byte) (color : Bool) : Statement (.decLores960 snapshot color) := fun _ _ h => nomatch h
theorem decLores1600 (snapshot : List Byte) (color : Bool) : Statement (.decLores1600 snapshot color) := fun _ _ h => nomatch h
theorem decLores1920 (snapshot : List Byte) (color : Bool) : Statement (.decLores1920 snapshot color) := fun _ _ h => nomatch h
theorem decHires6400 (snapshot : List Byte) (color : Bool) : Statement (.decHires6400 snapshot color) := fun _ _ h => nomatch h
theorem decHires7680 (snapshot : List Byte) (color : Bool) : Statement (.decHires7680 snapshot color) := fun _ _ h => nomatch h
theorem decHires12800 (snapshot : List Byte) (color : Bool) : Statement (.decHires12800 snapshot color) := fun _ _ h => nomatch h
theorem decHires15360 (snapshot : List Byte) (color : Bool) : Statement (.decHires15360 snapshot color) := fun _ _ h => nomatch h
theorem decEmpty (call : DecoderCall) : Statement (.decEmpty call) := fun _ _ h => nomatch h
theorem decBadLen (call : DecoderCall) (snapshot : List Byte) : Statement (.decBadLen call snapshot) := fun _ _ h => nomatch h
theorem reset : Statement (.reset) := fun _ _ h => nomatch h
theorem tick : Statement (.tick) := fun _ _ h => nomatch h

end Sys2Proof.Laws.EncodedRow
end

