-- ==== Sys2Proof/Laws/Program.lean ====
section
/-!
SUPPORT. What one line of a trace appends to the records, and the two steps on a state with a line pending and on one
without.
-/
namespace Sys2Proof.Machine

variable {C : Type}

/-- The records of a trace only grow (R120, R250). -/
structure RecordsGrow (s t : State C) : Prop where
  returned : ∃ l, t.returned = s.returned ++ l
  invoked  : ∃ l, t.invoked = s.invoked ++ l
  outputs  : ∃ l, t.outputs = s.outputs ++ l

theorem RecordsGrow.of_eq {s t : State C} (hr : t.returned = s.returned) (hi : t.invoked = s.invoked)
    (ho : t.outputs = s.outputs) : RecordsGrow s t := ⟨⟨[], by simp [hr]⟩, ⟨[], by simp [hi]⟩, [], by simp [ho]⟩

theorem RecordsGrow.trans {s t u : State C} (h : RecordsGrow s t) (h' : RecordsGrow t u) : RecordsGrow s u := by
  obtain ⟨⟨a, ha⟩, ⟨b, hb⟩, c, hc⟩ := h
  obtain ⟨⟨a', ha'⟩, ⟨b', hb'⟩, c', hc'⟩ := h'
  exact ⟨⟨a ++ a', by simp [ha', ha]⟩, ⟨b ++ b', by simp [hb', hb]⟩, c ++ c', by simp [hc', hc]⟩

variable (cfg : Config)

/-- A call of a handler appends its record, or none for the BankedRAM decode (R250; log 6). -/
theorem invoke_invoked (h : HandlerId) (a : Address) (cyc : C) (s : State C) :
    ∃ l, (invoke cfg h a cyc s).invoked = s.invoked ++ l := by
  by_cases hb : h = .bankedRam
  · subst hb; exact ⟨[], by rw [List.append_nil]; exact (bankedRam_noCall cfg a s).invoked⟩
  · rw [invoke_of_external cfg a s h cyc hb]; exact ⟨_, (invokeExternal_frame cfg a s h cyc).2.1⟩

/-- Dispatch appends to the record of calls only. -/
theorem dispatch_invoked (a : Address) (k : Kind) (cyc : C) (s : State C) :
    ∃ l, (dispatch cfg a k cyc s).invoked = s.invoked ++ l := by
  have triggered (e : SwitchEntry) (v : Bool) :
      ∃ l, (triggeredAccess cfg e v a k cyc s).invoked = s.invoked ++ l := by
    unfold triggeredAccess
    split <;> rw [(refreshStatus_noCall cfg e _).invoked]
    · split
      · exact invoke_invoked ..
      · exact ⟨[], by simp⟩
    · split <;> exact ⟨[], by simp⟩
  unfold dispatch
  split
  · exact ⟨[], by simp [State.raise]⟩
  · exact triggered ..
  · exact triggered ..
  · unfold statusAccess
    split
    · exact invoke_invoked ..
    · exact ⟨[], by simpa using (refreshStatus_noCall ..).invoked⟩

/-- A decode call of any decoder returns one output and raises at most one event; it changes nothing else (R260). -/
theorem decodeCall_eq (call : DecoderCall) (snap : List Byte) (s : State C) :
    ∃ o es, decodeCall cfg call snap s = { s with outputs := s.outputs ++ [o], log := s.log ++ es } ∧
      es.length ≤ 1 := by
  cases call <;> exact decodeRequest_eq ..

/-- A line of a trace only appends to the records. -/
theorem runLine_recordsGrow (line : TraceLine C) (s : State C) : RecordsGrow s (runLine cfg line s) := by
  cases line with
  | bus a acc =>
    have hd := dispatch_invoked cfg a acc.kind acc.cycle s
    obtain ⟨l, d, he, _⟩ := busOp_shape cfg a s acc
    have hv := (busOp_videoKept cfg a s acc).outputs
    rw [runLine]
    exact ⟨⟨l, by rw [he]⟩, by rw [he]; exact hd, [], by simpa using hv⟩
  | dec call snap =>
    obtain ⟨o, es, he, _⟩ := decodeCall_eq cfg call snap s
    rw [runLine, he]
    exact ⟨⟨[], by simp⟩, ⟨[], by simp⟩, [o], rfl⟩
  | reset => exact RecordsGrow.of_eq rfl rfl rfl
  | tick =>
    obtain ⟨n, p, he⟩ := flashTick_eq cfg s
    rw [runLine, he]
    exact RecordsGrow.of_eq rfl rfl rfl

/-- A trace only appends to the records. -/
theorem runTrace_recordsGrow (lines : List (TraceLine C)) (s : State C) : RecordsGrow s (runTrace cfg lines s) := by
  induction lines generalizing s with
  | nil => exact RecordsGrow.of_eq rfl rfl rfl
  | cons line lines ih => exact (runLine_recordsGrow cfg line s).trans (ih _)

/-- The operation decoded from a decode request is the decode call. -/
theorem exec_decodeSnapshot (call : DecoderCall) (snap : List Byte) (s : State) :
    exec (decodeSnapshot call snap) s = .next (decodeCall refConfig call snap s) := by
  unfold decodeSnapshot
  split
  · next h => rw [List.length_eq_zero_iff.1 h]; rfl
  · cases call <;> dsimp only <;> repeat' split
    all_goals rfl

end Sys2Proof.Machine
end

