-- ==== Sys2Proof/Laws/Table.lean ====
section
/-!
SUPPORT. What `Lookup` answers, what an accepted configuration gives (R410 to R415), and the status region that a reset
writes, read at any address.
-/
namespace Sys2Proof.Machine

/-- `Lookup` answers with an entry of the table that has the address in the role (R131). -/
theorem lookup_some {table : List SwitchEntry} {a : Address} {e : SwitchEntry} {role : Role}
    (h : lookup table a = some (e, role)) : answersAt a role e = true ∧ e ∈ table := by
  have hf : ∀ r, findRole table a r = some (e, role) → answersAt a role e = true ∧ e ∈ table := by
    intro r hr
    simp only [findRole, Option.map_eq_some_iff, Prod.mk.injEq] at hr
    obtain ⟨e', h1, rfl, rfl⟩ := hr
    exact ⟨List.find?_some h1, List.mem_of_find?_eq_some h1⟩
  unfold lookup at h
  split at h
  · next h' => cases h; exact hf _ h'
  · split at h
    · next h' => cases h; exact hf _ h'
    · exact hf _ h

/-- The reference configuration is accepted. -/
theorem refConfig_wellFormed : wellFormedConfig refConfig := by unfold wellFormedConfig; decide +kernel

section accepted

variable {cfg : Config} (hw : wellFormedConfig cfg)

include hw

/-- Every parameter of an accepted configuration meets its constraint (R415). -/
theorem parameterOk_of_accepted (p : Parameter) : parameterOk cfg p = true := by
  have hu : parameterOrder.find? (fun p => !parameterOk cfg p) = none := by
    simp only [wellFormedConfig, firstDefect] at hw
    simp_all
  rw [List.find?_eq_none] at hu
  simpa using hu p (by cases p <;> decide)

/-- Every address of an accepted table is present once (R413). -/
theorem count_address_of_accepted {e : SwitchEntry} (he : e ∈ cfg.table) {a : Address} (ha : a ∈ entryAddresses e) :
    (cfg.table.flatMap entryAddresses).count a = 1 := by
  have hu : firstEntry cfg.table (addressesUnique cfg.table) .addressRepeated = none := by
    simp only [wellFormedConfig, firstDefect] at hw
    simp_all
  simp only [firstEntry, Option.map_eq_none_iff, List.find?_eq_none] at hu
  have h := hu e he
  simp only [addressesUnique, Bool.not_eq_true', Bool.not_eq_false, List.all_eq_true, beq_iff_eq] at h
  exact h a ha

end accepted

/-- Two different members that both list a value count it twice. -/
theorem two_le_count_flatMap {α β : Type} [DecidableEq α] (f : β → List α) (a : α) (l : List β) {e e' : β}
    (he : e ∈ l) (he' : e' ∈ l) (hne : e ≠ e') (h : a ∈ f e) (h' : a ∈ f e') : 2 ≤ (l.flatMap f).count a := by
  induction l with
  | nil => simp at he
  | cons b l ih =>
    rw [List.flatMap_cons, List.count_append]
    have pos : ∀ e ∈ l, a ∈ f e → 1 ≤ (l.flatMap f).count a :=
      fun e he h => List.count_pos_iff.2 (List.mem_flatMap.2 ⟨e, he, h⟩)
    rcases List.mem_cons.1 he with hb | he <;> rcases List.mem_cons.1 he' with hb' | he'
    · exact absurd (hb.trans hb'.symm) hne
    · have h1 := pos e' he' h'; have h2 := List.count_pos_iff.2 h; subst hb; omega
    · have h1 := pos e he h; have h2 := List.count_pos_iff.2 h'; subst hb'; omega
    · have h1 := ih he he'; omega

/-- The status region after the refresh of a list of entries from fixed latches, read at an address to which all of
them give one value. -/
theorem foldl_refreshCell_read? (cfg : Config) (l : List (SwitchName × Bool)) (k : Nat) (v : Byte)
    (es : List SwitchEntry) (m : Memory)
    (hv : ∀ e ∈ es, e.handler = none → e.statusAddress.map BitVec.toNat = some k →
      sentinel cfg (keyedGet false l e.name) = v) :
    (es.foldl (refreshCell cfg l) m).read? k =
      if ∃ e ∈ es, e.handler = none ∧ e.statusAddress.map BitVec.toNat = some k then some v else m.read? k := by
  induction es generalizing m with
  | nil => simp
  | cons e es ih =>
    rw [List.foldl_cons, ih _ fun e' he' => hv e' (List.mem_cons_of_mem _ he'), refreshCell_read?]
    by_cases h1 : ∃ e ∈ es, e.handler = none ∧ e.statusAddress.map BitVec.toNat = some k
    · obtain ⟨e', h, h'⟩ := h1
      rw [if_pos ⟨e', h, h'⟩, if_pos ⟨e', List.mem_cons_of_mem _ h, h'⟩]
    · rw [if_neg h1]
      by_cases h2 : e.handler = none ∧ e.statusAddress.map BitVec.toNat = some k
      · rw [if_pos h2, if_pos ⟨e, List.mem_cons_self, h2⟩, hv e List.mem_cons_self h2.1 h2.2]
      · rw [if_neg h2, if_neg]
        rintro ⟨e', he', h'⟩
        rcases List.mem_cons.1 he' with rfl | he'
        · exact h2 h'
        · exact h1 ⟨e', he', h'⟩

end Sys2Proof.Machine
end

