-- ==== Sys2Proof/Laws/Video.lean ====
section
/-!
SUPPORT. What the shared parts of the pipelines do: filling a run, laying out bytes of a fixed number each, splitting a
byte into nibbles, placing a stream bit.
-/
namespace Sys2Proof.Machine

/-- A pixel after `fillFrom`: the value inside the run, the old pixel outside. -/
theorem fillFrom_getElem? (lo hi : Int) (v : Nat) (l : List Nat) (s x : Nat) :
    (fillFrom lo hi v s l)[x]? =
      l[x]?.map fun p => if lo ≤ ((s + x : Nat) : Int) ∧ ((s + x : Nat) : Int) ≤ hi then v else p := by
  induction l generalizing s x with
  | nil => simp [fillFrom]
  | cons p l ih =>
    cases x with
    | zero => simp [fillFrom]
    | succ x =>
      have hx : s + 1 + x = s + (x + 1) := by omega
      simp only [fillFrom, List.getElem?_cons_succ, ih, hx]

/-- A pixel after `fill` (R8). -/
theorem fill_getElem? (l : List Nat) (lo hi : Int) (v x : Nat) :
    (fill l lo hi v)[x]? = l[x]?.map fun p => if lo ≤ (x : Int) ∧ (x : Int) ≤ hi then v else p := by
  simp [fill, fillFrom_getElem?]

theorem fillFrom_length (lo hi : Int) (v : Nat) (l : List Nat) (s : Nat) :
    (fillFrom lo hi v s l).length = l.length := by
  induction l generalizing s with
  | nil => rfl
  | cons p l ih => simp [fillFrom, ih]

/-- A fill keeps the length of the line. -/
@[simp] theorem fill_length (l : List Nat) (lo hi : Int) (v : Nat) : (fill l lo hi v).length = l.length :=
  fillFrom_length ..

/-- The length of rows of a fixed length laid end to end. -/
theorem length_flatMap_of_const {α β : Type} (f : α → List β) (k : Nat) (l : List α) (h : ∀ a ∈ l, (f a).length = k) :
    (l.flatMap f).length = k * l.length := by
  induction l with
  | nil => simp
  | cons a l ih => simp [h a List.mem_cons_self, ih fun b hb => h b (List.mem_cons_of_mem _ hb)]; ring

/-- Leaving out the first rows of a fixed length laid end to end. -/
theorem drop_flatMap_of_const {α β : Type} (f : α → List β) (k : Nat) (l : List α) (h : ∀ a ∈ l, (f a).length = k)
    (i : Nat) : (l.flatMap f).drop (k * i) = (l.drop i).flatMap f := by
  induction l generalizing i with
  | nil => simp
  | cons a l ih =>
    cases i with
    | zero => simp
    | succ i =>
      have hk : k * (i + 1) = (f a).length + k * i := by rw [h a List.mem_cons_self]; ring
      rw [List.flatMap_cons, hk, List.drop_append, Nat.add_sub_cancel_left,
        ih fun b hb => h b (List.mem_cons_of_mem _ hb)]
      simp

/-- The low nibble is the byte modulo 16 (R106). -/
theorem lowNibble_eq (v : Byte) : lowNibble v = v.toNat % 16 := by simp [lowNibble]

/-- The high nibble is the byte divided by 16 (R106). -/
theorem highNibble_eq (v : Byte) : highNibble v = v.toNat / 16 := by
  have := v.isLt
  simp [highNibble]
  omega

/-- `H` is 0 or 1 (R326). -/
theorem hiresHigh_le (line : List Byte) (k : Nat) : hiresHigh line k ≤ 1 := by
  unfold hiresHigh bitNat
  cases (byteAt line (k / 7)).getLsbD 7 <;> simp

/-- A stream bit at its place in the window (R353). -/
theorem shiftedStreamBit_eq (line : List Byte) (t : Nat) :
    shiftedStreamBit line t = if streamBit line t then 2 ^ (t % 4) else 0 := by
  unfold shiftedStreamBit
  split <;> simp_all [Nat.shiftLeft_eq]

/-- The default permutation is the rotation of four bits left by one (R313, R354). -/
theorem rotateLeftTable_eq {n : Nat} (h : n < 16) : rotateLeftTable.getD n 0 = 2 * n % 16 + n / 8 := by
  have all : ∀ n : Fin 16, rotateLeftTable.getD n.val 0 = 2 * n.val % 16 + n.val / 8 := by decide
  exact all ⟨n, h⟩

end Sys2Proof.Machine
end

