-- ==== Sys2Proof/Tests/Slice0.lean ====
section
/-!
SUPPORT. The model's own tests and the witnesses of the statements' hypotheses. Every expected value is the spec's: the
opcode table for the decoding tests, spec/95_test_vectors.md (vectors V.., programs P.., properties T..) for the rest.
-/
namespace Sys2Proof.Tests

-- One theorem after another: many waiting kernel checks at once ask for more threads than the memory limit allows.
set_option Elab.async false

open Sys2Proof.Machine Sys2Proof.Statements

/-! ### Helpers -/

/-- The state after one operation; the same state where there is none. -/
def after (i : Instr) (s : State) : State :=
  match exec i s with
  | .next t => t
  | _ => s

/-- A read line and a write line with data 0 and cycle count 0. -/
def rd (a : Address) : TraceLine := .bus a (.rd 0)

def wr (a : Address) : TraceLine := .bus a (.wr 0 0)

/-- The state after the operation of a line. -/
def afterLine (l : TraceLine) (s : State) : State := after (decode l) s

/-- A line of bytes from its first ones, zero after them. -/
def padded (width : Nat) (first : List Byte) : List Byte := first ++ List.replicate (width - first.length) 0

/-- A line of 40 bytes whose last one is given. -/
def lastByte (b : Byte) : List Byte := List.replicate 39 0 ++ [b]

/-- The index of every pixel of a line from its runs, in the notation of 95: first, last, index. -/
def ofRuns (rs : List (Nat × Nat × Nat)) : List Nat :=
  (List.range 560).map fun x => ((rs.find? fun r => decide (r.1 ≤ x) && decide (x ≤ r.2.1)).map (·.2.2)).getD 0

/-! ### Well-formedness: an ill-formed term for each check, refused -/

theorem test_illformed_unmapped : (Instr.unmapped 0xC051 (.rd 0)).wellFormed = false := by decide +kernel

theorem test_illformed_text :
    ((Instr.decText960 [0] false (.value false) false true).wellFormed ||
      (Instr.decText1920 [0] false .flashPhase false true).wellFormed) = false := by decide

theorem test_illformed_lores :
    ((Instr.decLores800 [0] true).wellFormed || (Instr.decLores960 [0] true).wellFormed ||
      (Instr.decLores1600 [] true).wellFormed || (Instr.decLores1920 [0] false).wellFormed) = false := by decide

theorem test_illformed_hires :
    ((Instr.decHires6400 [0] true).wellFormed || (Instr.decHires7680 [] true).wellFormed ||
      (Instr.decHires12800 [0] true).wellFormed || (Instr.decHires15360 [0] false).wellFormed) = false := by decide

theorem test_illformed_badlen_empty : (Instr.decBadLen (.lores true) []).wellFormed = false := by decide

theorem test_illformed_badlen_admitted :
    (Instr.decBadLen (.lores true) (List.replicate 800 0)).wellFormed = false := by decide +kernel

theorem test_wellformed_badlen : (Instr.decBadLen (.text false .flashPhase false true) [0]).wellFormed = true := by
  decide

/-! ### Decoding: words written out from R90, R122 and the opcode table -/

theorem test_decode_write_only :
    [0xC000, 0xC001, 0xC002, 0xC003, 0xC004, 0xC005, 0xC006, 0xC007].map (decodeTableWord 16) =
      [Instr.store80Off, .store80On, .ramRdOff, .ramRdOn, .ramWrtOff, .ramWrtOn, .intCxRomOff, .intCxRomOn].map
        fun f => some (f (.rd 0)) := by decide +kernel

theorem test_decode_write_only_high :
    [0xC008, 0xC009, 0xC00A, 0xC00B, 0xC00C, 0xC00D, 0xC00E, 0xC00F].map (decodeTableWord 16) =
      [Instr.altZpOff, .altZpOn, .slotC3RomOff, .slotC3RomOn, .column80Off, .column80On, .altCharSetOff,
        .altCharSetOn].map fun f => some (f (.rd 0)) := by decide +kernel

theorem test_decode_status :
    [0xC010, 0xC011, 0xC012, 0xC013, 0xC014, 0xC015, 0xC016, 0xC017, 0xC018].map (decodeTableWord 16) =
      [Instr.kbrdStrobeStatus, .bsrBank2Status, .bsrReadRamStatus, .ramRdStatus, .ramWrtStatus, .intCxRomStatus,
        .altZpStatus, .slotC3RomStatus, .store80Status].map fun f => some (f (.rd 0)) := by decide +kernel

theorem test_decode_display_status :
    [0xC01A, 0xC01B, 0xC01C, 0xC01D, 0xC01E, 0xC01F].map (decodeTableWord 16) =
      [Instr.textStatus, .mixedStatus, .page2Status, .hiresStatus, .altCharSetStatus, .column80Status].map
        fun f => some (f (.rd 0)) := by decide +kernel

theorem test_decode_speaker_display :
    [0xC030, 0xC031, 0xC050, 0xC051, 0xC052, 0xC053, 0xC054, 0xC055, 0xC056, 0xC057].map (decodeTableWord 16) =
      [Instr.speakerOff, .speakerOn, .textOff, .textOn, .mixedOff, .mixedOn, .page2Off, .page2On, .hiresOff,
        .hiresOn].map fun f => some (f (.rd 0)) := by decide +kernel

theorem test_decode_joystick :
    [0xC061, 0xC062, 0xC063, 0xC064, 0xC065, 0xC066, 0xC067, 0xC070].map (decodeTableWord 16) =
      [Instr.pb0Status, .pb1Status, .pb2Status, .paddle0Status, .paddle1Status, .paddle2Status, .paddle3Status,
        .ptrigStatus].map fun f => some (f (.rd 0)) := by decide +kernel

theorem test_decode_bank_two :
    [0xC080, 0xC081, 0xC082, 0xC083, 0xC084, 0xC085, 0xC086, 0xC087].map (decodeTableWord 16) =
      [Instr.bsrSel0Off, .bsrSel0On, .bsrSel1Off, .bsrSel1On, .bsrSel2Off, .bsrSel2On, .bsrSel3Off, .bsrSel3On].map
        fun f => some (f (.rd 0)) := by decide +kernel

theorem test_decode_bank_one :
    [0xC088, 0xC089, 0xC08A, 0xC08B, 0xC08C, 0xC08D, 0xC08E, 0xC08F].map (decodeTableWord 16) =
      [Instr.bsrSel4Off, .bsrSel4On, .bsrSel5Off, .bsrSel5On, .bsrSel6Off, .bsrSel6On, .bsrSel7Off, .bsrSel7On].map
        fun f => some (f (.rd 0)) := by decide +kernel

theorem test_decode_disk :
    [0xC0E0, 0xC0E1, 0xC0E2, 0xC0E3, 0xC0E4, 0xC0E5, 0xC0E6, 0xC0E7].map (decodeTableWord 16) =
      [Instr.drvSm0Off, .drvSm0On, .drvSm1Off, .drvSm1On, .drvSm2Off, .drvSm2On, .drvSm3Off, .drvSm3On].map
        fun f => some (f (.rd 0)) := by decide +kernel

/-- R97: neighbours of mapped addresses, and both ends of the routed page. -/
theorem test_decode_unmapped :
    [0xC019, 0xC020, 0xC02F, 0xC032, 0xC04F, 0xC058, 0xC060, 0xC068, 0xC071, 0xC090, 0xC0DF, 0xC0E8, 0xC0FF].all
      (fun w => decodeTableWord 16 w == some (.unmapped (BitVec.ofNat 16 w) (.rd 0))) = true := by decide +kernel

/-- R122, bit by bit: kind 1 in bit 16, then the 16 bits of `0xC051`. -/
theorem test_decode_write_word : decodeTableWord 24 0b11100000001010001 = some (.textOn (.wr 0 0)) := by decide +kernel

theorem test_decode_reject : decodeTableWord 24 0x20000 = none := by decide

/-- R100: the lengths select the rows. -/
theorem test_decode_text_lengths (flash : FlashArg) (alt mixed color : Bool) :
    decode (.dec (.text alt flash mixed color) (List.replicate 960 0)) =
        .decText960 (List.replicate 960 0) alt flash mixed color ∧
      decode (.dec (.text alt flash mixed color) (List.replicate 1920 0)) =
        .decText1920 (List.replicate 1920 0) alt flash mixed color := by
  constructor <;> simp only [decode, decodeSnapshot, List.length_replicate] <;> rfl

theorem test_decode_lores_lengths (color : Bool) :
    decode (.dec (.lores color) (List.replicate 800 0)) = .decLores800 (List.replicate 800 0) color ∧
      decode (.dec (.lores color) (List.replicate 960 0)) = .decLores960 (List.replicate 960 0) color ∧
      decode (.dec (.lores color) (List.replicate 1600 0)) = .decLores1600 (List.replicate 1600 0) color ∧
      decode (.dec (.lores color) (List.replicate 1920 0)) = .decLores1920 (List.replicate 1920 0) color := by
  refine ⟨?_, ?_, ?_, ?_⟩ <;> simp only [decode, decodeSnapshot, List.length_replicate] <;> rfl

theorem test_decode_hires_lengths (color : Bool) :
    decode (.dec (.hires color) (List.replicate 6400 0)) = .decHires6400 (List.replicate 6400 0) color ∧
      decode (.dec (.hires color) (List.replicate 7680 0)) = .decHires7680 (List.replicate 7680 0) color ∧
      decode (.dec (.hires color) (List.replicate 12800 0)) = .decHires12800 (List.replicate 12800 0) color ∧
      decode (.dec (.hires color) (List.replicate 15360 0)) = .decHires15360 (List.replicate 15360 0) color := by
  refine ⟨?_, ?_, ?_, ?_⟩ <;> simp only [decode, decodeSnapshot, List.length_replicate] <;> rfl

theorem test_decode_rejected_lengths :
    decode (.dec (.lores true) []) = .decEmpty (.lores true) ∧
      decode (.dec (.hires true) [0]) = .decBadLen (.hires true) [0] := by decide

theorem test_decode_reset_tick : decode .reset = .reset ∧ decode .tick = .tick := by decide

/-- R121: the pseudo-operations. -/
theorem test_pseudo_operations :
    [PseudoOp.set .text, .clr .store80, .tst .hires, .rset .drvSm0, .rclr .speaker, .tst .speaker].map
        (PseudoOp.expand refTable) =
      [some (wr 0xC051), some (wr 0xC000), some (rd 0xC01D), some (rd 0xC0E1), some (rd 0xC030), none] := by
  decide +kernel

/-! ### Reset and construction (V1, V9.3, V9.4) -/

/-- V1: the fourteen core-owned bytes. -/
theorem test_reset_status :
    State.reset.status =
      [(0xC011, 0x0D), (0xC012, 0x0D), (0xC013, 0x0D), (0xC014, 0x0D), (0xC015, 0x0D), (0xC016, 0x0D), (0xC017, 0x0D),
        (0xC018, 0x0D), (0xC01A, 0x8D), (0xC01B, 0x0D), (0xC01C, 0x0D), (0xC01D, 0x0D), (0xC01E, 0x0D),
        (0xC01F, 0x0D)] := by decide +kernel

/-- V1: `S[TEXT] = 1`, the other 35 latches 0. -/
theorem test_reset_latches :
    (State.reset.latches.filter (·.2)).map (·.1) = [.text] ∧ State.reset.latches.length = 36 := by decide +kernel

/-- R33, R34: 14 core-owned addresses; the other 242 are not held. -/
theorem test_core_owned_count : (coreOwnedAddresses refTable).length = 14 := by decide +kernel

/-- The reference table with the entry of one name replaced. -/
def withEntry (e : SwitchEntry) : Config :=
  { refConfig with table := refTable.map fun f => if f.name = e.name then e else f }

/-- V9.3 (a): an entry with no address. -/
theorem test_construct_no_address :
    firstDefect { refConfig with table := refTable ++ [⟨.platform 0, none, none, none, false, none⟩] } =
      some (.noAddress (.platform 0)) := by decide +kernel

/-- V9.3 (b). -/
theorem test_construct_out_of_range :
    firstDefect (withEntry ⟨.text, some 0xC150, some 0xC051, some 0xC01A, false, none⟩) =
      some (.addressOutOfRange .text) := by decide +kernel

/-- V9.3 (c): `MIXED` removed. -/
theorem test_construct_not_adjacent :
    firstDefect { refConfig with
        table := (withEntry ⟨.text, some 0xC050, some 0xC052, some 0xC01A, false, none⟩).table.filter
          fun e => e.name != .mixed } = some (.onNotAdjacent .text) := by decide +kernel

/-- V9.3 (d); that the defect records the entry first in the table is the model's choice (log 30). -/
theorem test_construct_repeated :
    firstDefect (withEntry ⟨.kbrdStrobe, some 0xC010, some 0xC011, none, false, some .kbdStrobe⟩) =
      some (.addressRepeated .kbrdStrobe) := by decide +kernel

/-- V9.3 (e). -/
theorem test_construct_unbound :
    firstDefect (withEntry ⟨.text, some 0xC050, some 0xC051, some 0xC01A, false, some (.platform 9)⟩) =
      some (.handlerUnbound .text) := by decide +kernel

/-- V9.3 (f), (g). -/
theorem test_construct_bad_parameter :
    firstDefect { refConfig with sentSet := 0x0D } = some (.badParameter .sentSet) ∧
      firstDefect { refConfig with dhgrPerm := [0, 0, 2, 3, 4, 5, 6, 7, 8, 9, 10, 11, 12, 13, 14, 15] } =
        some (.badParameter .dhgrPerm) := by constructor <;> decide +kernel

/-- R372, R415: two entries of one name; the code, the rule and the entry that the defect records. -/
theorem test_construct_repeated_name :
    let d := firstDefect { refConfig with
      table := refTable ++ [⟨.text, none, none, some 0xC0F0, false, none⟩] }
    d = some (.nameRepeated .text) ∧ d.map (·.code) = some 3 ∧ d.map (·.rule) = some 415 ∧
      d.map (·.entry) = some (some .text) := by refine ⟨?_, ?_, ?_, ?_⟩ <;> decide +kernel

/-- R6: a hi-res palette without a white entry. -/
theorem test_construct_no_white :
    firstDefect { refConfig with palHiresColor := List.replicate 8 black } = some (.badParameter .palHiresColor) := by
  decide +kernel

/-- R401: the drivers register three ids; `BANKEDRAM` needs no registration, the speaker's does. -/
theorem test_construct_registration :
    firstDefect { refConfig with handlers := [.joystick, .speaker, .kbdStrobe] } = none ∧
      firstDefect { refConfig with handlers := [.bankedRam, .joystick, .kbdStrobe] } =
        some (.handlerUnbound .speaker) := by constructor <;> decide +kernel

/-- V9.4: the empty table, and disk phases with a registered handler. -/
theorem test_construct_accepted :
    firstDefect { refConfig with table := [] } = none ∧
      firstDefect { refConfig with
        handlers := .platform 6 :: refConfig.handlers
        table := refTable.map fun e =>
          if e.name ∈ [.drvSm0, .drvSm1, .drvSm2, .drvSm3] then { e with handler := some (.platform 6) } else e } =
        none := by constructor <;> decide +kernel

/-! ### Bus accesses (V2, V9.1, T10, T11, T13) -/

/-- V2.1, V2.2: a write to each on address of a write-only switch. -/
theorem test_write_only_on :
    [(0xC001, SwitchName.store80), (0xC003, .ramRd), (0xC005, .ramWrt), (0xC007, .intCxRom), (0xC009, .altZp),
      (0xC00B, .slotC3Rom), (0xC00D, .column80), (0xC00F, .altCharSet)].all
      (fun p => (afterLine (wr p.1) State.reset).latch p.2) = true := by decide +kernel

/-- V2.1: a write to each off address of a write-only switch that is set. -/
theorem test_write_only_off :
    [(0xC000, SwitchName.store80), (0xC002, .ramRd), (0xC004, .ramWrt), (0xC006, .intCxRom), (0xC008, .altZp),
      (0xC00A, .slotC3Rom), (0xC00C, .column80), (0xC00E, .altCharSet)].all
      (fun p => !(afterLine (wr p.1) (State.reset.setLatch p.2 true)).latch p.2) = true := by decide +kernel

/-- V2.5 (a): a gated-off read. -/
theorem test_write_only_read_gated :
    (afterLine (rd 0xC001) State.reset).latch .store80 = false ∧
      (afterLine (rd 0xC001) State.reset).status.read? 0xC018 = some 0x0D := by constructor <;> decide +kernel

/-- V2.1, V2.2: display switches, by a read. -/
theorem test_display_read :
    [(0xC051, SwitchName.text, true), (0xC050, .text, false), (0xC053, .mixed, true), (0xC052, .mixed, false),
      (0xC055, .page2, true), (0xC054, .page2, false), (0xC057, .hires, true), (0xC056, .hires, false)].all
      (fun p => (afterLine (rd p.1) (State.reset.setLatch p.2.1 !p.2.2)).latch p.2.1 == p.2.2) = true := by
  decide +kernel

/-- V2.1: the status byte of a display switch after its off access. -/
theorem test_display_status_byte :
    (afterLine (rd 0xC050) State.reset).status.read? 0xC01A = some 0x0D := by decide +kernel

/-- T14, V1: the bytes that the fourteen status addresses return after reset. -/
theorem test_status_reads :
    [0xC011, 0xC012, 0xC013, 0xC014, 0xC015, 0xC016, 0xC017, 0xC018, 0xC01A, 0xC01B, 0xC01C, 0xC01D, 0xC01E,
      0xC01F].map (fun a => (afterLine (rd a) State.reset).returned) =
      [[0x0D], [0x0D], [0x0D], [0x0D], [0x0D], [0x0D], [0x0D], [0x0D], [0x8D], [0x0D], [0x0D], [0x0D], [0x0D],
        [0x0D]] := by decide +kernel

/-- V2.4: all sixteen fragments, read and written: `B`, the two coarse latches. -/
theorem test_banked_ram :
    (List.range 16).map (fun f => ((afterLine (rd (BitVec.ofNat 16 (0xC080 + f))) State.reset).banked.toList.findIdx id,
      (afterLine (wr (BitVec.ofNat 16 (0xC080 + f))) State.reset).latch .bsrBank2,
      (afterLine (rd (BitVec.ofNat 16 (0xC080 + f))) State.reset).latch .bsrReadRam)) =
      [(0, true, true), (1, true, false), (2, true, false), (3, true, true), (0, true, true), (1, true, false),
        (2, true, false), (3, true, true), (4, false, true), (5, false, false), (6, false, false), (7, false, true),
        (4, false, true), (5, false, false), (6, false, false), (7, false, true)] := by decide +kernel

/-- T4: the source's own two rows, `frag 0` and `frag 8`. -/
theorem test_banked_ram_source_rows :
    (afterLine (rd 0xC080) State.reset).banked.toList = [true, false, false, false, false, false, false, false] ∧
      (afterLine (rd 0xC088) State.reset).banked.toList = [false, false, false, false, true, false, false, false] := by
  constructor <;> decide +kernel

/-- P4: the disk phases. -/
theorem test_disk_phases :
    [(0xC0E1, SwitchName.drvSm0, true), (0xC0E0, .drvSm0, false), (0xC0E3, .drvSm1, true), (0xC0E2, .drvSm1, false),
      (0xC0E5, .drvSm2, true), (0xC0E4, .drvSm2, false), (0xC0E7, .drvSm3, true), (0xC0E6, .drvSm3, false)].all
      (fun p => (afterLine (rd p.1) (State.reset.setLatch p.2.1 !p.2.2)).latch p.2.1 == p.2.2) = true := by
  decide +kernel

/-- T11: the speaker. -/
theorem test_speaker :
    (after (.speakerOff (.rd 1000)) State.reset).invoked = [⟨.speaker, 0xC030, 1000⟩] ∧
      (after (.speakerOff (.rd 1000)) State.reset).outbound = [.click 1000] ∧
      (after (.speakerOn (.wr 0 9)) State.reset).invoked = [⟨.speaker, 0xC031, 9⟩] := by
  refine ⟨?_, ?_, ?_⟩ <;> decide +kernel

/-- T10, P4: the keyboard strobe. -/
theorem test_keyboard_strobe :
    (after (.kbrdStrobeStatus (.rd 2000)) State.reset).invoked = [⟨.kbdStrobe, 0xC010, 2000⟩] := by decide +kernel

/-- T13, V2.1: the joystick addresses. -/
theorem test_joystick :
    [0xC061, 0xC062, 0xC063, 0xC064, 0xC065, 0xC066, 0xC067, 0xC070].all
      (fun a => (after (decode (.bus a (.wr 0 9))) State.reset).invoked == [⟨.joystick, a, 9⟩]) = true := by
  decide +kernel

/-- V9.1: an unmapped read and an unmapped write. -/
theorem test_unmapped :
    (after (decode (.bus 0xC0FF (.rd 7))) State.reset).log = [.unknownSoftSwitch 0xC0FF .rd 7] ∧
      (after (decode (.bus 0xC019 (.wr 0 12))) State.reset).log = [.unknownSoftSwitch 0xC019 .wr 12] := by
  constructor <;> decide +kernel

/-- R372: the codes of the two events. -/
theorem test_event_codes :
    (Event.unknownSoftSwitch 0xC0FF .rd 7 : Event).code = 1 ∧ (Event.badLength .text 1 : Event).code = 2 := by decide

/-- V2.5 (g): under `EXACT` a write does not set `TEXT` and does not call the speaker. -/
theorem test_exact_policy :
    (dispatch { refConfig with policy := .exact } 0xC050 .wr 0 State.reset).latch .text = true ∧
      (dispatch { refConfig with policy := .exact } 0xC050 .rd 0 State.reset).latch .text = false ∧
      (dispatch { refConfig with policy := .exact } 0xC030 .wr 0 State.reset).invoked = [] ∧
      (dispatch { refConfig with policy := .exact } 0xC030 .rd 0 State.reset).invoked.length = 1 := by
  refine ⟨?_, ?_, ?_, ?_⟩ <;> decide +kernel

/-- V1.2: reset does not clear the log. -/
theorem test_reset_keeps_log :
    (after .reset (State.reset.raise (.unknownSoftSwitch 0xC0FF .rd 0))).log = [.unknownSoftSwitch 0xC0FF .rd 0] := by
  decide +kernel

/-- V7: the flash cadence at its wrap. -/
theorem test_tick :
    (after .tick { State.reset with flashCount := 23 }).flashCount = 0 ∧
      (after .tick { State.reset with flashCount := 23 }).flashPhase = true ∧
      (after .tick { State.reset with flashCount := 22 }).flashCount = 23 := by refine ⟨?_, ?_, ?_⟩ <;> decide +kernel

/-- Host check: the word placed is the next operation run. -/
theorem test_with_fetch_word :
    (match step (State.reset.withFetchWord 16 0xC050) with
      | .next t => t.latch .text
      | _ => true) = false := by decide +kernel

/-! ### Programs (R120) -/

/-- The returned bytes and the calls of a program on a block with other sentinels. -/
theorem test_program_configuration :
    (match (Program.fromReset { refConfig with sentSet := 0x80, sentClear := 0x00 }
        [wr 0xC001, rd 0xC018, rd 0xC01B, wr 0xC030]).run with
      | .next r => (r.returned, r.invoked)
      | _ => ([], [])) = ([0x80, 0x00], [⟨.speaker, 0xC030, 0⟩]) := by decide +kernel

/-- A switch that a platform adds answers at an address that `REF_TABLE` leaves unmapped. -/
theorem test_program_platform_table :
    (match (Program.fromReset
        { refConfig with table := refTable ++ [⟨.platform 1, some 0xC0F0, some 0xC0F1, some 0xC0F2, false, none⟩] }
        [wr 0xC0F1, rd 0xC0F2]).run with
      | .next r => (r.returned, r.endState.log)
      | _ => ([], [])) = ([0x8D], []) := by decide +kernel

/-- R6: another type of a cycle count, here of 16 bits; the count reaches the record and the click. -/
theorem test_program_cycle_type :
    (match (Program.fromReset refConfig [.bus 0xC030 (.wr 0 (0xFFFF : BitVec 16))]).run with
      | .next r => (r.invoked, r.endState.outbound)
      | _ => ([], [])) = ([⟨.speaker, 0xC030, 0xFFFF⟩], [.click 0xFFFF]) := by decide +kernel

/-- R138, R142 with R34 (log 29): after a call through an off address the byte of a switch with a handler is stored, and the
core does not own it. -/
theorem test_handler_switch_status_byte :
    let cfg := { refConfig with
      handlers := .platform 1 :: refConfig.handlers
      table := refTable ++ [⟨.platform 1, some 0xC0F0, some 0xC0F1, some 0xC0F2, false, some (.platform 1)⟩] }
    firstDefect cfg = none ∧ coreOwned cfg.table 0xC0F2 = false ∧
      ((dispatch cfg 0xC0F0 .rd 0 State.reset).status.read? 0xC0F2).isSome = true := by
  refine ⟨?_, ?_, ?_⟩ <;> decide +kernel

/-! ### Text (V3) -/

/-- V3.1: glyph codes without the alternate set. -/
theorem test_glyphs :
    [0x00, 0x1F, 0x20, 0x3F, 0x40, 0x5F, 0x60, 0x7F, 0x80, 0x9F, 0xA0, 0xE1, 0xFF].map (fun v => glyphOf v false) =
      [64, 95, 32, 63, 64, 95, 32, 63, 64, 95, 32, 97, 127].map .character := by decide +kernel

/-- V3.1: glyph codes with the alternate set. -/
theorem test_glyphs_alt :
    [0x00, 0x3F, 0x40, 0x5F, 0x60, 0x7F, 0x80, 0xC1].map (fun v => glyphOf v true) =
      [.character 64, .character 63, .mouseText 64, .mouseText 95, .character 96, .character 127, .character 64,
        .character 65] := by decide +kernel

/-- V3.2: the boundaries of the classification. -/
theorem test_text_styles :
    [63, 64, 95, 96, 127, 128].map (fun v => (textStyle v false, textStyle v true)) =
      [(.inverse, .inverse), (.flashing, .normal), (.flashing, .normal), (.flashing, .inverse), (.flashing, .inverse),
        (.normal, .normal)] := by decide +kernel

/-- V3.3: cell (0, 1) of a mixed snapshot is hidden, cell (20, 0) is not. -/
theorem test_text_mixed :
    textCell (padded 960 [0x01, 0x41]) 40 false false true 0 1 = ⟨false, .character 65, false⟩ ∧
      textCell (padded 960 [0x01, 0x41]) 40 false false true 20 0 = ⟨true, .character 64, true⟩ := by
  constructor <;> decide +kernel

/-- V3.4: the area of cell (1, 1) at 80 columns. -/
theorem test_text_area : cellArea 7 1 1 = ((7, 13), (8, 15)) := by decide

/-- V3.5: rejected lengths. -/
theorem test_text_rejected :
    (after (.decBadLen (.text false .flashPhase false true) [0]) State.reset).log = [.badLength .text 1] ∧
      (after (.decEmpty (.text false .flashPhase false true)) State.reset).log = [] := by constructor <;> decide +kernel

/-! ### LoRes (V4) -/

/-- V4.1 (T9). -/
theorem test_lores_halves :
    [(0, 0), (3, 13), (4, 0), (7, 13), (7, 14), (8, 0)].map
        (fun p => loresPixel refConfig (padded 800 [0xF0]) ⟨20, 40, some true, false⟩ p.1 p.2) =
      [0, 0, 15, 15, 0, 0] := by decide +kernel

/-- V4.3: the remap of an even column at double resolution. -/
theorem test_lores_double :
    [(0, 0), (4, 6), (0, 7), (4, 13)].map
        (fun p => loresPixel refConfig (padded 1600 [0x81, 0x81]) ⟨20, 80, some true, true⟩ p.1 p.2) =
      [2, 1, 1, 8] := by decide +kernel

/-- V4.2: the last cell. -/
theorem test_lores_last_cell :
    [(184, 546), (187, 559), (188, 546), (191, 559), (184, 545)].map
        (fun p => loresPixel refConfig (List.replicate 959 0 ++ [0x5A]) ⟨24, 40, some false, false⟩ p.1 p.2) =
      [10, 10, 5, 5, 0] := by decide +kernel

/-! ### HiRes (V5) -/

/-- V5.3: a white pair shows its lead pixel in colour and not in monochrome. -/
theorem test_hires_pair : hiresLine refConfig true (padded 40 [0, 3]) = ofRuns [(13, 17, 3)] := by decide +kernel

theorem test_hires_pair_mono : hiresLine refConfig false (padded 40 [0, 3]) = ofRuns [(14, 17, 3)] := by decide +kernel

/-- V5.7: the retroactive white merge. -/
theorem test_hires_merge : hiresLine refConfig true (padded 40 [0x0D]) = ofRuns [(0, 2, 2), (3, 7, 3)] := by
  decide +kernel

/-- V5.6: a lone bit in an odd column with the high bit. -/
theorem test_hires_lone : hiresLine refConfig true (padded 40 [0x82]) = ofRuns [(3, 6, 5)] := by decide +kernel

/-- V5.16: a pair across a byte boundary takes the high bit of the first byte. -/
theorem test_hires_boundary : hiresLine refConfig true (padded 40 [0x40, 0x81]) = ofRuns [(11, 15, 3)] := by
  decide +kernel

/-- V5.18: a pair at the end of the line. -/
theorem test_hires_end : hiresLine refConfig true (lastByte 0x60) = ofRuns [(555, 559, 3)] := by decide +kernel

/-- V9.2: rejected lengths. -/
theorem test_hires_rejected :
    (after (.decBadLen (.hires true) (List.replicate 960 0)) State.reset).log = [.badLength .hires 960] := by
  decide +kernel

/-! ### DoubleHiRes (V6) -/

/-- V6.3. -/
theorem test_dhires_lookup : dhiresLine refConfig true (padded 80 [0x05]) = ofRuns [(0, 0, 10), (1, 2, 8)] := by
  decide +kernel

/-- V6.9: bits across a byte boundary. -/
theorem test_dhires_boundary :
    dhiresLine refConfig true (padded 80 [0x40, 0x01]) = ofRuns [(3, 3, 8), (4, 6, 9), (7, 7, 1)] := by decide +kernel

/-- V6.5, colour and monochrome. -/
theorem test_dhires_end : dhiresLine refConfig true (List.replicate 79 0 ++ [0x40]) = ofRuns [(556, 559, 1)] := by
  decide +kernel

theorem test_dhires_mono : dhiresLine refConfig false (padded 80 [0x85]) = ofRuns [(0, 0, 15), (2, 2, 15)] := by
  decide +kernel

/-! ### Palettes (V8) -/

theorem test_palette_color :
    (palettize refConfig (loresPalette refConfig true) [[0, 9, 15]]).bytes =
        [0, 0, 0, 255, 249, 86, 29, 255, 255, 255, 255, 255] ∧
      (palettize refConfig (hiresPalette refConfig true) [[1, 2], [5, 6]]).bytes =
        [67, 200, 0, 255, 187, 54, 255, 255, 249, 86, 29, 255, 7, 168, 224, 255] := by constructor <;> decide +kernel

theorem test_palette_mono :
    (palettize refConfig (loresPalette refConfig false) [[1, 8, 15]]).bytes =
        [0, 17, 0, 255, 0, 136, 0, 255, 0, 255, 0, 255] ∧
      loresMonoEntry ⟨255, 176, 0⟩ 5 = ⟨85, 58, 0⟩ := by constructor <;> decide +kernel

/-- P1: the display plan of hi-res mixed. -/
theorem test_display_plan :
    displayPlan (((State.reset.setLatch .text false).setLatch .hires true).setLatch .mixed true) =
      ⟨some (.hires, 160), some 20⟩ := by decide +kernel

/-! ### Witnesses: a concrete state and operands that meet all the hypotheses of each statement that has some -/

/-- A sound state that is not the reset state: one line pending, the flash counter at its last value. -/
def soundState : State := { State.reset with pending := [.tick], flashCount := 23 }

theorem soundState_agrees : StatusAgrees refConfig soundState := by
  have h : refTable.all (fun e => e.handler.isSome || e.statusAddress.all fun a =>
      soundState.status.read? a.toNat == some (sentinel refConfig (soundState.latch e.name))) = true := by decide +kernel
  intro e he hh a ha
  have := List.all_eq_true.1 h e he
  simpa [hh, ha] using this

theorem soundState_sound : soundState.Sound refConfig where
  canonical := by decide +kernel
  lists := by decide +kernel
  agrees := soundState_agrees
  latchNames := by decide +kernel
  flashBound := by decide +kernel
  banked := .inl rfl
  bankTwo := by decide +kernel
  readRam := by decide +kernel

theorem witness_StepRunsTheNextLine :
    soundState.pending = .tick :: [] ∧ State.reset.pending = [] := ⟨rfl, rfl⟩

theorem witness_DecodeOfEncodeIsTheOperation :
    (Instr.unmapped 0xC019 (.rd 7)).wellFormed = true ∧ (Instr.textOn (.wr 3 7)).wellFormed = true ∧
      (Instr.decLores800 (List.replicate 800 0) true).wellFormed = true ∧
      (Instr.decBadLen (.hires true) (List.replicate 960 0)).wellFormed = true ∧
      (Instr.decEmpty (.hires true)).wellFormed = true ∧ 0x1FFFF < 0x20000 ∧ ¬ 0x20000 < 0x20000 := by
  refine ⟨?_, ?_, ?_, ?_, ?_, ?_, ?_⟩ <;> decide +kernel

theorem witness_WriteToWriteOnlySwitchSetsItsLatch :
    (⟨.store80Off, .store80, false, 0xC018⟩ : SwitchRow) ∈ writeOnlySwitchRows ∧
      (⟨.altCharSetOn, .altCharSet, true, 0xC01E⟩ : SwitchRow) ∈ writeOnlySwitchRows := by
  constructor <;> simp [writeOnlySwitchRows]

theorem witness_ReadOfWriteOnlySwitchKeepsItsLatch :
    (⟨.store80On, .store80, true, 0xC018⟩ : SwitchRow) ∈ writeOnlySwitchRows := by simp [writeOnlySwitchRows]

theorem witness_AccessToDisplaySwitchSetsItsLatch :
    (⟨.textOff, .text, false, 0xC01A⟩ : SwitchRow) ∈ displaySwitchRows ∧
      (⟨.hiresOn, .hires, true, 0xC01D⟩ : SwitchRow) ∈ displaySwitchRows := by
  constructor <;> simp [displaySwitchRows]

theorem witness_StatusAddressShowsItsLatch :
    (⟨.bsrBank2Status, .bsrBank2, 0xC011⟩ : AddressRow) ∈ statusAddressRows ∧
      (⟨.column80Status, .column80, 0xC01F⟩ : AddressRow) ∈ statusAddressRows := by
  constructor <;> simp [statusAddressRows]

theorem witness_JoystickAddressCallsItsHandler :
    (⟨.pb0Status, .pb0, 0xC061⟩ : AddressRow) ∈ joystickAddresses ∧ HandlerId.kbdStrobe ≠ .joystick ∧
      ¬ ∃ r' ∈ joystickAddresses, SwitchName.text = r'.name := by
  refine ⟨by simp [joystickAddresses], by decide, by decide⟩

theorem witness_KeyboardStrobeCallsItsHandler :
    HandlerId.joystick ≠ .kbdStrobe ∧ ¬ SwitchName.text = .kbrdStrobe := by decide

theorem witness_SpeakerAddressClicksOnce :
    (⟨.speakerOn, .speaker, 0xC031⟩ : AddressRow) ∈ speakerRows ∧ HandlerId.joystick ≠ .speaker := by
  exact ⟨by simp [speakerRows], by decide⟩

theorem witness_BankedRamAddressDecodesItsFragment :
    (⟨.bsrSel0Off, 0, true, true⟩ : BankRow) ∈ bankAddresses ∧
      (⟨.bsrSel7On, 7, false, true⟩ : BankRow) ∈ bankAddresses := by
  constructor <;> simp [bankAddresses]

theorem witness_DiskPhaseAddressSetsItsLatch : (Instr.drvSm3On, SwitchName.drvSm3, true) ∈ diskAddresses := by
  simp [diskAddresses]

theorem witness_UnmappedAccessOnlyLogs :
    lookup refTable 0xC019 = none ∧ lookup refTable 0xC0FF = none ∧ lookup refTable 0xBFFF = none := by
  refine ⟨?_, ?_, ?_⟩ <;> decide +kernel

theorem witness_TextSnapshotGivesItsCells :
    (Instr.decText960, 40) ∈ [(Instr.decText960, 40), (Instr.decText1920, 80)] ∧
      (List.replicate 960 (0xA0 : Byte)).length = 24 * 40 ∧ (List.replicate 1920 (0xA0 : Byte)).length = 24 * 80 :=
  ⟨List.mem_cons_self, List.length_replicate, List.length_replicate⟩

theorem witness_LoResSnapshotGivesItsBlocks :
    (List.replicate 800 (0xF0 : Byte)).length = 20 * 40 ∧ (List.replicate 1920 (0xF0 : Byte)).length = 24 * 80 :=
  ⟨List.length_replicate, List.length_replicate⟩

theorem witness_HiResSnapshotGivesItsRuns :
    (List.replicate 6400 (1 : Byte)).length = 40 * 160 ∧ (List.replicate 7680 (1 : Byte)).length = 40 * 192 :=
  ⟨List.length_replicate, List.length_replicate⟩

theorem witness_DoubleHiResSnapshotGivesItsWindows :
    (List.replicate 12800 (5 : Byte)).length = 80 * 160 ∧ (List.replicate 15360 (5 : Byte)).length = 80 * 192 :=
  ⟨List.length_replicate, List.length_replicate⟩

theorem witness_UnknownLengthIsLoggedAndEmpty :
    ([0] : List Byte) ≠ [] ∧ ([0] : List Byte).length ∉ (DecoderCall.text false .flashPhase false true).decoder.lengths := by
  decide

theorem witness_EveryStepKeepsTheStateSound :
    ∃ t, soundState.Sound refConfig ∧ step soundState = .next t ∧ t.flashPhase = true :=
  ⟨_, soundState_sound, rfl, rfl⟩

theorem witness_LatchChangesOnlyThroughItsWriters :
    ∃ t, exec (.textOff (.wr 0 0)) State.reset = .next t ∧ t.latch .text ≠ State.reset.latch .text :=
  ⟨_, rfl, by decide +kernel⟩

/-- A core-owned address and one that calls no external handler; a latch that no external handler may write. -/
theorem witness_CycleCountIsOnlyPassedOn :
    coreOwned refTable 0xC01A = true ∧ ¬ CallsExternal refTable 0xC08F ∧ ¬ CallsExternal refTable 0xC0FF ∧
      ∀ h, h ≠ .bankedRam → ¬ HandlerMayWrite refConfig h .text := by
  have l1 : lookup refTable 0xC08F = some (⟨.bsrSel7, some 0xC08E, some 0xC08F, none, false, some .bankedRam⟩, .on) := by
    decide +kernel
  have l2 : lookup refTable 0xC0FF = none := by decide +kernel
  refine ⟨by decide +kernel, ?_, ?_, ?_⟩
  · rintro ⟨e, role, h, hl, hh, hb⟩
    rw [l1] at hl; cases hl; cases hh; exact hb rfl
  · rintro ⟨e, role, h, hl, _, _⟩
    rw [l2] at hl; cases hl
  · have hu : ∀ e ∈ refTable, e.name = .text → e.handler = none := by decide +kernel
    intro h hb hw
    have : ∃ e ∈ ownEntries refConfig.table h, e.name = .text := by
      cases h <;> first | exact absurd rfl hb | exact hw
    obtain ⟨e, he, hn⟩ := this
    simp only [ownEntries, List.mem_filter, beq_iff_eq] at he
    rw [hu e he.1 hn] at he
    cases he.2

theorem witness_LogGrowsByAtMostOneEvent :
    ∃ t, exec (.unmapped 0xC0FF (.wr 0 7)) State.reset = .next t ∧ t.log = [.unknownSoftSwitch 0xC0FF .wr 7] :=
  ⟨_, rfl, by decide +kernel⟩

theorem witness_FlashPhaseInvertsEveryPeriod :
    State.reset.flashCount = 0 ∧ State.reset.flashPhase = false := ⟨rfl, rfl⟩

theorem witness_ResetForgetsTheStateBefore :
    soundState.Sound refConfig ∧ { soundState with pending := [] }.Sound refConfig :=
  ⟨soundState_sound, soundState_sound.1, soundState_sound.2, soundState_sound.3, soundState_sound.4,
    soundState_sound.5, soundState_sound.6, soundState_sound.7, soundState_sound.8⟩

theorem witness_SavedStateDeterminesTheStatusBytes :
    soundState.Sound refConfig ∧ { soundState with pending := [] }.Sound refConfig ∧
      soundState.latches = ({ soundState with pending := [] } : State).latches :=
  ⟨witness_ResetForgetsTheStateBefore.1, witness_ResetForgetsTheStateBefore.2, rfl⟩

theorem witness_DefaultToggleFollowsTheGate :
    lookup refConfig.table 0xC000 = some (⟨.store80, some 0xC000, some 0xC001, some 0xC018, true, none⟩, .off) ∧
      lookup refConfig.table 0xC051 = some (⟨.text, some 0xC050, some 0xC051, some 0xC01A, false, none⟩, .on) := by
  constructor <;> decide +kernel

theorem witness_StatusAccessOnlyRefreshesItsByte :
    lookup refConfig.table 0xC01A = some (⟨.text, some 0xC050, some 0xC051, some 0xC01A, false, none⟩, .status) := by
  decide +kernel

theorem witness_DispatchKeepsTheLatchesOfOtherSwitches :
    lookup refConfig.table 0xC08F = some (⟨.bsrSel7, some 0xC08E, some 0xC08F, none, false, some .bankedRam⟩, .on) ∧
      ¬ HandlerMayWrite refConfig .bankedRam .text := by
  exact ⟨by decide +kernel, by simp [HandlerMayWrite]⟩

theorem witness_WrittenSwitchReadsBackAtItsStatusAddress :
    wellFormedConfig refConfig ∧ refConfig.policy = .gate ∧
      (⟨.store80, some 0xC000, some 0xC001, some 0xC018, true, none⟩ : SwitchEntry) ∈ refConfig.table :=
  ⟨refConfig_wellFormed, rfl, List.mem_cons_self⟩

theorem witness_ExternalHandlerKeepsToItsFootprint : HandlerId.speaker ≠ .bankedRam := by decide

theorem witness_StatusBytesAgreeForEveryAcceptedTable :
    wellFormedConfig refConfig ∧ StatusAgrees refConfig soundState := ⟨refConfig_wellFormed, soundState_agrees⟩

theorem witness_AcceptedTableResolvesEachAddressOnce :
    wellFormedConfig refConfig ∧
      (⟨.store80, some 0xC000, some 0xC001, some 0xC018, true, none⟩ : SwitchEntry) ∈ refConfig.table ∧
      answersAt 0xC018 .status ⟨.store80, some 0xC000, some 0xC001, some 0xC018, true, none⟩ = true :=
  ⟨refConfig_wellFormed, List.mem_cons_self, by decide⟩

theorem witness_UnreachableEntryIsRefusedAtConstruction :
    ∃ e ∈ ({ refConfig with table := [⟨.platform 0, none, none, none, false, none⟩] } : Config).table,
      e.offAddress = none ∧ e.statusAddress = none := ⟨_, List.mem_cons_self, rfl, rfl⟩

theorem witness_BankedRamReadsOnlyTheFragment :
    (0xC08F : Address).toNat % 16 = (0xFFFF : Address).toNat % 16 ∧
      (entryNamed refConfig.table .bsrBank2).isSome = true ∧ (entryNamed refConfig.table .bsrReadRam).isSome = true := by
  refine ⟨?_, ?_, ?_⟩ <;> decide +kernel

theorem witness_LastBankedRamAccessWins : Memory.wf State.reset.status = true := by decide +kernel

theorem witness_ClassifyAdmitsExactlyTheTable :
    0 ∉ DecoderKind.text.lengths ∧ 961 ∉ DecoderKind.lores.lengths ∧ 15361 ∉ DecoderKind.hires.lengths := by decide

theorem witness_DecoderOutputDependsOnItsOperandsOnly :
    (∀ alt mixed color, DecoderCall.text true (.value true) false true ≠ .text alt .flashPhase mixed color) := by
  intro alt mixed color h; cases h

theorem witness_PaletteStagePlacesEveryPixel :
    (∀ row ∈ [List.replicate 560 0], row.length = 560) ∧ [List.replicate 560 0][0]? = some (List.replicate 560 0) ∧
      (List.replicate 560 0)[559]? = some 0 ∧ refPalHiresColor[0]? = some black := by
  refine ⟨by simp only [List.mem_singleton, forall_eq, List.length_replicate], rfl, ?_, rfl⟩
  rw [List.getElem?_replicate]; rfl

theorem witness_LoneBitShowsItsOwnColour :
    (emits (padded 40 [0x01]) 0 = true ∧ hiresNextBit (padded 40 [0x01]) 0 = false ∧
      2 * 0 + hiresHigh (padded 40 [0x01]) 0 + 1 < 560) ∧
    (emits (lastByte 0xC0) 279 = true ∧ hiresNextBit (lastByte 0xC0) 279 = false ∧
      2 * 279 + hiresHigh (lastByte 0xC0) 279 + 0 < 560) := by
  refine ⟨⟨?_, ?_, ?_⟩, ?_, ?_, ?_⟩ <;> decide +kernel

theorem witness_WhitePairTakesThePixelBefore :
    (emits (padded 40 [0, 3]) 7 = true ∧ hiresNextBit (padded 40 [0, 3]) 7 = true ∧
      2 * 7 + hiresHigh (padded 40 [0, 3]) 7 ≤ 13 + 1) ∧
    (emits (lastByte 0x60) 278 = true ∧ hiresNextBit (lastByte 0x60) 278 = true ∧
      557 ≤ 2 * 278 + hiresHigh (lastByte 0x60) 278 + 1) := by
  refine ⟨⟨?_, ?_, ?_⟩, ?_, ?_, ?_⟩ <;> decide +kernel

theorem witness_LineWithoutDataBitsIsBlack : ∀ k < 280, hiresBit (List.replicate 40 0x80) k = false := by
  decide +kernel

theorem witness_PeriodFourStreamGivesOneColour :
    ∀ t, 0 ≤ t → t < 0 + 20 → streamBit [0x11, 0x22, 0x44, 0x08] (t + 4) = streamBit [0x11, 0x22, 0x44, 0x08] t := by
  have h : ∀ t < 20, streamBit [0x11, 0x22, 0x44, 0x08] (t + 4) = streamBit [0x11, 0x22, 0x44, 0x08] t := by
    decide +kernel
  intro t _ ht
  exact h t (by omega)

theorem witness_DoubleHiResIgnoresHighBits :
    ∀ m b, m < 80 → b < 7 → (byteAt [0x85] m).getLsbD b = (byteAt [0x05] m).getLsbD b := by
  have h : ∀ m < 80, ∀ b < 7, (byteAt [0x85] m).getLsbD b = (byteAt [0x05] m).getLsbD b := by decide +kernel
  exact fun m b hm hb => h m hm b hb

theorem witness_MonochromeDoubleHiResLightsEachSetBit : (List.replicate 80 (0x85 : Byte)).length = 80 :=
  List.length_replicate

theorem witness_TextStyleDecidesTheInverseBit :
    64 ≤ (0x40 : Byte).toNat ∧ (0x7F : Byte).toNat ≤ 127 ∧ 96 ≤ (0x60 : Byte).toNat := by decide

/-- Each of the five cases of the plan, and a length of one of them. -/
theorem witness_DisplayPlanAsksForAdmittedLengths :
    State.reset.latch .text = true ∧
      (∀ h m : Bool, ∃ s : State, s.latch .text = false ∧ s.latch .hires = h ∧ s.latch .mixed = m) ∧
      (displayPlan (State.reset.setLatch .text false)).graphics = some (.lores, 24) ∧
      960 ∈ planLengths (displayPlan (State.reset.setLatch .text false)) := by
  refine ⟨by decide +kernel, fun h m => ?_, by decide +kernel, by decide +kernel⟩
  exact ⟨((State.reset.setLatch .text false).setLatch .hires h).setLatch .mixed m, by cases h <;> cases m <;> decide +kernel⟩

/-- An accepted configuration, and one that construction refuses. -/
theorem witness_ProgramRunsUnderItsConfiguration :
    wellFormedConfig (Program.fromReset refConfig [.tick] : Program).config ∧
      firstDefect { refConfig with flashPeriod := 0 } = some (.badParameter .flashPeriod) :=
  ⟨refConfig_wellFormed, by decide +kernel⟩

end Sys2Proof.Tests
end

section
/-!
What an accepted table gives (R410 to R415), and that every address of it resolves once (O42).
-/
namespace Sys2Proof.Machine

/-- When no first entry fails a check, every entry passes it. -/
theorem check_of_firstEntry_none {table : List SwitchEntry} {check : SwitchEntry → Bool}
    {defect : SwitchName → ConstructionDefect} (h : firstEntry table check defect = none) :
    ∀ e ∈ table, check e = true := by
  simpa [firstEntry, List.find?_eq_none] using h

/-- Where `Lookup` finds nothing, no role has an entry (R131). -/
theorem findRole_none_of_lookup_none {table : List SwitchEntry} {a : Address} (h : lookup table a = none)
    (role : Role) : findRole table a role = none := by
  unfold lookup at h
  split at h
  · cases h
  · split at h
    · cases h
    · cases role <;> assumption

/-- `Lookup` finds something at an address at which an entry answers (R131). -/
theorem lookup_ne_none_of_answers {table : List SwitchEntry} {a : Address} {role : Role} {e : SwitchEntry}
    (he : e ∈ table) (ha : answersAt a role e = true) : lookup table a ≠ none := by
  intro h
  have hf := findRole_none_of_lookup_none h role
  simp only [findRole, Option.map_eq_none_iff, List.find?_eq_none] at hf
  exact hf e he ha

/-- An entry whose present addresses are distinct answers at an address in one role only. -/
theorem role_unique_of_nodup {a : Address} {role role' : Role} {e : SwitchEntry} (hd : (entryAddresses e).Nodup)
    (h : answersAt a role e = true) (h' : answersAt a role' e = true) : role = role' := by
  cases role <;> cases role' <;> simp_all [answersAt, entryAddresses, List.nodup_append']

section accepted

variable {cfg : Config} (hw : wellFormedConfig cfg)

include hw

/-- Every present address of an accepted table lies in the status region (R411). -/
theorem inRegion_of_accepted {e : SwitchEntry} (he : e ∈ cfg.table) {a : Address} (ha : a ∈ entryAddresses e) :
    Memory.inRegion a.toNat = true := by
  have hu : firstEntry cfg.table addressesRouted .addressOutOfRange = none := by
    simp only [wellFormedConfig, firstDefect] at hw
    simp_all
  have h := check_of_firstEntry_none hu e he
  exact List.all_eq_true.1 h a ha

/-- Two entries of an accepted table with one name are the same entry (R415). -/
theorem entry_eq_of_name {e e' : SwitchEntry} (he : e ∈ cfg.table) (he' : e' ∈ cfg.table) (hn : e.name = e'.name) :
    e = e' := by
  have hu : firstEntry cfg.table (nameUnique cfg.table) .nameRepeated = none := by
    simp only [wellFormedConfig, firstDefect] at hw
    simp_all
  have hd : (cfg.table.map SwitchEntry.name).Nodup := by
    rw [List.nodup_iff_count_eq_one]
    intro n hn
    obtain ⟨e, he, rfl⟩ := List.mem_map.1 hn
    simpa [nameUnique] using check_of_firstEntry_none hu e he
  exact List.inj_on_of_nodup_map hd he he' hn

/-- Two entries of an accepted table that list one address are the same entry (R413). -/
theorem entry_eq_of_address {e e' : SwitchEntry} (he : e ∈ cfg.table) (he' : e' ∈ cfg.table) {a : Address}
    (ha : a ∈ entryAddresses e) (ha' : a ∈ entryAddresses e') : e = e' := by
  by_contra hne
  have h1 := count_address_of_accepted hw he ha
  have h2 := two_le_count_flatMap entryAddresses a cfg.table he he' hne ha ha'
  omega

/-- The present addresses of an accepted table are pairwise distinct (R23). -/
theorem nodup_addresses_of_accepted : (cfg.table.flatMap entryAddresses).Nodup := by
  rw [List.nodup_iff_count_eq_one]
  intro a ha
  obtain ⟨e, he, hae⟩ := List.mem_flatMap.1 ha
  exact count_address_of_accepted hw he hae

/-- An accepted table resolves an address to one entry and one role (R23). -/
theorem resolves_once_of_accepted {a : Address} {e e' : SwitchEntry} {role role' : Role} (he : e ∈ cfg.table)
    (he' : e' ∈ cfg.table) (h : answersAt a role e = true) (h' : answersAt a role' e' = true) :
    e = e' ∧ role = role' := by
  have hee : e = e' := entry_eq_of_address hw he he' (mem_entryAddresses h) (mem_entryAddresses h')
  subst hee
  have hd : (entryAddresses e).Nodup := (List.nodup_flatMap.1 (nodup_addresses_of_accepted hw)).1 e he
  exact ⟨rfl, role_unique_of_nodup hd h h'⟩

/-- `Lookup` of an accepted table finds the entry and the role that answer (R131). -/
theorem lookup_of_answers {a : Address} {e : SwitchEntry} {role : Role} (he : e ∈ cfg.table)
    (h : answersAt a role e = true) : lookup cfg.table a = some (e, role) := by
  obtain ⟨⟨e', role'⟩, hl⟩ := Option.ne_none_iff_exists'.1 (lookup_ne_none_of_answers he h)
  obtain ⟨h', he'⟩ := lookup_some hl
  obtain ⟨rfl, rfl⟩ := resolves_once_of_accepted hw he he' h h'
  exact hl

end accepted

/-- Settles O42: the count of every address is 1, so an address has one entry, and in it one role. -/
theorem acceptedTableResolvesEachAddressOnce : Obligations.AcceptedTableResolvesEachAddressOnce := by
  intro cfg hw
  refine ⟨nodup_addresses_of_accepted hw, fun a e e' role role' he he' h h' => ?_⟩
  obtain ⟨hee, hrole⟩ := resolves_once_of_accepted hw he he' h h'
  exact ⟨hee, hrole, lookup_of_answers hw he h⟩

end Sys2Proof.Machine
end

section
/-!
What an operation of the block does, said once: an operation is the line that encodes it, and Dispatch is one of six
updates. The latch writers (O28) and the growth of the log (O29) are read off it.
-/
namespace Sys2Proof.Machine

variable {C : Type}

/-- What Dispatch makes of a state, by what `Lookup` answers and whether the gate lets the access through (R130 to
R142). -/
inductive DispatchEffect (cfg : Config) (a : Address) (k : Kind) (cyc : C) (s : State C) : State C → Prop where
  /-- R132. -/
  | unmapped : lookup cfg.table a = none → DispatchEffect cfg a k cyc s (s.raise (.unknownSoftSwitch a k cyc))
  /-- R135 with the gate open. -/
  | toggled {e : SwitchEntry} {role : Role} (v : Bool) : lookup cfg.table a = some (e, role) → role ≠ .status →
      e.handler = none → DispatchEffect cfg a k cyc s (refreshStatus cfg e (s.setLatch e.name v))
  /-- R141, or R135 with the gate closed. -/
  | shown {e : SwitchEntry} {role : Role} : lookup cfg.table a = some (e, role) → e.handler = none →
      DispatchEffect cfg a k cyc s (refreshStatus cfg e s)
  /-- R140. -/
  | called {e : SwitchEntry} {h : HandlerId} : lookup cfg.table a = some (e, .status) → e.handler = some h →
      DispatchEffect cfg a k cyc s (invoke cfg h a cyc s)
  /-- R134 with the gate open. -/
  | triggered {e : SwitchEntry} {role : Role} {h : HandlerId} : lookup cfg.table a = some (e, role) →
      role ≠ .status → e.handler = some h →
      DispatchEffect cfg a k cyc s (refreshStatus cfg e (invoke cfg h a cyc s))
  /-- R137 with the gate closed. -/
  | gated {e : SwitchEntry} {role : Role} {h : HandlerId} : lookup cfg.table a = some (e, role) → role ≠ .status →
      e.handler = some h → DispatchEffect cfg a k cyc s (refreshStatus cfg e s)

variable (cfg : Config) (a : Address) (k : Kind) (cyc : C) (s : State C)

/-- An access to an off or on address is one of the updates (R133 to R138). -/
theorem triggeredAccess_effect {e : SwitchEntry} {role : Role} (v : Bool) (hl : lookup cfg.table a = some (e, role))
    (hr : role ≠ .status) : DispatchEffect cfg a k cyc s (triggeredAccess cfg e v a k cyc s) := by
  unfold triggeredAccess
  split <;> split
  · exact .triggered hl hr ‹_›
  · exact .gated hl hr ‹_›
  · exact .toggled v hl hr ‹_›
  · exact .shown hl ‹_›

/-- An access to a status address is one of the updates (R140, R141). -/
theorem statusAccess_effect {e : SwitchEntry} (hl : lookup cfg.table a = some (e, .status)) :
    DispatchEffect cfg a k cyc s (statusAccess cfg e a cyc s) := by
  unfold statusAccess
  split
  · exact .called hl ‹_›
  · exact .shown hl ‹_›

/-- Dispatch is one of the updates. -/
theorem dispatch_effect : DispatchEffect cfg a k cyc s (dispatch cfg a k cyc s) := by
  unfold dispatch
  split
  · exact .unmapped ‹_›
  · exact triggeredAccess_effect cfg a k cyc s false ‹_› (by simp)
  · exact triggeredAccess_effect cfg a k cyc s true ‹_› (by simp)
  · exact statusAccess_effect cfg a k cyc s ‹_›

/-- Every operation is what the line that encodes it does under the configuration of this hardware (R120). -/
theorem exec_eq_runLine_encode (i : Instr) (s : State) : exec i s = .next (runLine refConfig (encode i) s) := by
  cases i <;> rfl

/-- The operation that a line decodes to is what the line does under the configuration of this hardware (R120). -/
theorem exec_decode (line : TraceLine) (s : State) : exec (decode line) s = .next (runLine refConfig line s) := by
  cases line with
  | bus a acc => exact exec_decodeBus a acc s
  | dec call snap => exact exec_decodeSnapshot call snap s
  | reset => rfl
  | tick => rfl

/-- The only operation encoded as the line RESET is RESET. -/
theorem eq_reset_of_encode {i : Instr} (h : encode i = .reset) : i = .reset := by
  cases i <;> cases h
  rfl

variable {cfg a k cyc s}

/-- A latch that Dispatch changes is that of a plain switch at its off or on address, or one that the handler of the
address may write (R22, R243). -/
theorem DispatchEffect.latch_writer {t : State C} (ht : DispatchEffect cfg a k cyc s t) {n : SwitchName}
    (hn : t.latch n ≠ s.latch n) : ∃ e role, lookup cfg.table a = some (e, role) ∧
      ((e.handler = none ∧ e.name = n ∧ role ≠ .status) ∨ ∃ h, e.handler = some h ∧ HandlerMayWrite cfg h n) := by
  have mayWrite (h : HandlerId) (hne : (invoke cfg h a cyc s).latch n ≠ s.latch n) : HandlerMayWrite cfg h n := by
    by_contra hw
    exact hne (invoke_latches cfg a s h cyc n hw)
  cases ht with
  | unmapped hl => exact absurd rfl hn
  | toggled v hl hr hh =>
    refine ⟨_, _, hl, .inl ⟨hh, ?_, hr⟩⟩
    by_contra hne
    simp [hne] at hn
  | shown hl hh => simp at hn
  | called hl hh => exact ⟨_, _, hl, .inr ⟨_, hh, mayWrite _ hn⟩⟩
  | triggered hl hr hh =>
    rw [refreshStatus_latch] at hn
    exact ⟨_, _, hl, .inr ⟨_, hh, mayWrite _ hn⟩⟩
  | gated hl hr hh => simp at hn

/-- A line of a trace appends at most one event to the log (R35, R376). -/
theorem runLine_log (cfg : Config) (line : TraceLine C) (s : State C) :
    ∃ es, (runLine cfg line s).log = s.log ++ es ∧ es.length ≤ 1 := by
  cases line with
  | bus a acc => exact ⟨_, (busOp_log cfg a s acc).trans (dispatch_log ..), by split <;> simp⟩
  | dec call snap =>
    obtain ⟨o, es, he, hes⟩ := decodeCall_eq cfg call snap s
    exact ⟨es, congrArg State.log he, hes⟩
  | reset => exact ⟨[], by simp [runLine], by simp⟩
  | tick =>
    obtain ⟨n, p, he⟩ := flashTick_eq cfg s
    exact ⟨[], by simp [runLine, he], by simp⟩

/-- Settles O28: of the lines, a decode call and a tick leave the latches, and a bus access writes them by Dispatch. -/
theorem latchChangesOnlyThroughItsWriters : Obligations.LatchChangesOnlyThroughItsWriters := by
  intro i s t n hi hn
  rw [exec_eq_runLine_encode] at hi
  cases hi
  cases hline : encode i with
  | bus a acc =>
    rw [hline, runLine, busOp_latch] at hn
    obtain ⟨e, role, hl, hw⟩ := (dispatch_effect ..).latch_writer hn
    exact .inr ⟨a, acc, e, role, rfl, hl, hw⟩
  | dec call snap =>
    obtain ⟨o, es, he, -⟩ := decodeCall_eq refConfig call snap s
    rw [hline, runLine, he] at hn
    exact absurd rfl hn
  | reset => exact .inl (eq_reset_of_encode hline)
  | tick =>
    obtain ⟨c, p, he⟩ := flashTick_eq refConfig s
    rw [hline, runLine, he] at hn
    exact absurd rfl hn

/-- Settles O29: the events that a line appends are none or one. -/
theorem logGrowsByAtMostOneEvent : Obligations.LogGrowsByAtMostOneEvent := by
  intro i s t hi
  rw [exec_eq_runLine_encode] at hi
  cases hi
  obtain ⟨es, hlog, hes⟩ := runLine_log refConfig (encode i) s
  match es with
  | [] => exact .inl (by simpa using hlog)
  | [e] => exact .inr ⟨e, hlog⟩

end Sys2Proof.Machine
end

section
/-!
`INV-STATUS` (R33): the update of a status byte restores it, and every line of a trace keeps it (O41).
-/
namespace Sys2Proof.Machine

variable {C : Type}

/-- `INV-STATUS` speaks of the status region and of the latches of the entries without a handler only. -/
theorem StatusAgrees.of_kept {cfg : Config} {s t : State C} (hs : StatusAgrees cfg s) (hst : t.status = s.status)
    (hl : ∀ e ∈ cfg.table, e.handler = none → t.latch e.name = s.latch e.name) : StatusAgrees cfg t := by
  intro e he hh a ha
  rw [hst, hl e he hh, hs e he hh a ha]

/-- A decode call touches nothing that `INV-STATUS` speaks of. -/
theorem decodeCall_statusAgrees {cfg : Config} (call : DecoderCall) (snap : List Byte) {s : State C}
    (hs : StatusAgrees cfg s) : StatusAgrees cfg (decodeCall cfg call snap s) := by
  obtain ⟨o, es, he, -⟩ := decodeCall_eq cfg call snap s
  rw [he]
  exact hs.of_kept rfl fun _ _ _ => rfl

/-- A tick touches nothing that `INV-STATUS` speaks of. -/
theorem flashTick_statusAgrees {cfg : Config} {s : State C} (hs : StatusAgrees cfg s) :
    StatusAgrees cfg (flashTick cfg s) := by
  obtain ⟨n, p, he⟩ := flashTick_eq cfg s
  rw [he]
  exact hs.of_kept rfl fun _ _ _ => rfl

/-- An entry named in the table is an entry of the table with that name. -/
theorem mem_of_entryNamed {table : List SwitchEntry} {n : SwitchName} {e : SwitchEntry}
    (h : entryNamed table n = some e) : e ∈ table ∧ e.name = n :=
  ⟨List.mem_of_find?_eq_some h, by simpa using List.find?_some h⟩

section accepted

variable {cfg : Config} (hw : wellFormedConfig cfg)

include hw

/-- The status address of an entry of an accepted table is no other entry's. -/
theorem entry_eq_of_statusAddress {e e' : SwitchEntry} (he : e ∈ cfg.table) (he' : e' ∈ cfg.table) {a : Address}
    (ha : e.statusAddress = some a) (ha' : e'.statusAddress = some a) : e = e' :=
  entry_eq_of_address hw he he' (a := a) (by simp [entryAddresses, ha]) (by simp [entryAddresses, ha'])

/-- The refresh of one entry restores `INV-STATUS` where every other entry meets it: no other entry has that address. -/
theorem refreshStatus_statusAgrees {e : SwitchEntry} (he : e ∈ cfg.table) {s : State C}
    (hs : ∀ e' ∈ cfg.table, e' ≠ e → e'.handler = none → ∀ a, e'.statusAddress = some a →
      s.status.read? a.toNat = some (sentinel cfg (s.latch e'.name))) : StatusAgrees cfg (refreshStatus cfg e s) := by
  intro e' he' hh a ha
  rw [refreshStatus_read?, refreshStatus_latch]
  by_cases hee : e' = e
  · subst hee
    simp [ha]
  · rw [if_neg, hs e' he' hee hh a ha]
    intro hk
    obtain ⟨b, hb, hba⟩ := Option.map_eq_some_iff.1 hk
    rw [BitVec.eq_of_toNat_eq hba] at hb
    exact hee (entry_eq_of_statusAddress hw he' he ha hb)

/-- A latch set together with its status byte keeps `INV-STATUS`: no other entry has that name. -/
theorem setLatch_refreshStatus_statusAgrees {e : SwitchEntry} (he : e ∈ cfg.table) (v : Bool) {s : State C}
    (hs : StatusAgrees cfg s) : StatusAgrees cfg (refreshStatus cfg e (s.setLatch e.name v)) := by
  refine refreshStatus_statusAgrees hw he fun e' he' hne hh a ha => ?_
  have hname : e.name ≠ e'.name := fun hn => hne (entry_eq_of_name hw he' he hn.symm)
  rw [State.setLatch_status, State.setLatch_latch, if_neg hname]
  exact hs e' he' hh a ha

/-- A coarse bit of the BankedRAM decode is written with its status byte (R226). -/
theorem writeCoarse_statusAgrees (n : SwitchName) (v : Bool) {s : State C} (hs : StatusAgrees cfg s) :
    StatusAgrees cfg (writeCoarse cfg n v s) := by
  unfold writeCoarse
  split
  · next e h =>
    obtain ⟨he, rfl⟩ := mem_of_entryNamed h
    exact setLatch_refreshStatus_statusAgrees hw he v hs
  · exact hs

/-- An external handler writes no core-owned byte and no latch of an entry without a handler (R243(b)). -/
theorem invokeExternal_statusAgrees (h : HandlerId) (a : Address) (cyc : C) {s : State C} (hs : StatusAgrees cfg s) :
    StatusAgrees cfg (invokeExternal cfg h a cyc s) := by
  obtain ⟨-, -, -, hst, -⟩ := invokeExternal_frame cfg a s h cyc
  refine hs.of_kept hst fun e he hh => invokeExternal_latch cfg a s h cyc e.name fun e' he' hn => ?_
  obtain ⟨he', hh'⟩ := List.mem_filter.1 he'
  rw [entry_eq_of_name hw he' he hn, hh] at hh'
  cases hh'

/-- The call of a handler keeps `INV-STATUS`. -/
theorem invoke_statusAgrees (h : HandlerId) (a : Address) (cyc : C) {s : State C} (hs : StatusAgrees cfg s) :
    StatusAgrees cfg (invoke cfg h a cyc s) := by
  by_cases hb : h = .bankedRam
  · subst hb
    have hb : StatusAgrees cfg (s.setBanked (bankVector (bankFragment a))) := hs.of_kept rfl fun _ _ _ => rfl
    exact writeCoarse_statusAgrees hw _ _ (writeCoarse_statusAgrees hw _ _ hb)
  · rw [invoke_of_external cfg a s h cyc hb]
    exact invokeExternal_statusAgrees hw h a cyc hs

/-- Dispatch keeps `INV-STATUS`. -/
theorem DispatchEffect.statusAgrees {a : Address} {k : Kind} {cyc : C} {s t : State C}
    (ht : DispatchEffect cfg a k cyc s t) (hs : StatusAgrees cfg s) : StatusAgrees cfg t := by
  have refresh {e : SwitchEntry} {role : Role} (hl : lookup cfg.table a = some (e, role)) {u : State C}
      (hu : StatusAgrees cfg u) : StatusAgrees cfg (refreshStatus cfg e u) :=
    refreshStatus_statusAgrees hw (lookup_some hl).2 fun e' he' _ => hu e' he'
  cases ht with
  | unmapped hl => exact hs.of_kept rfl fun _ _ _ => rfl
  | toggled v hl hr hh => exact setLatch_refreshStatus_statusAgrees hw (lookup_some hl).2 v hs
  | shown hl hh => exact refresh hl hs
  | called hl hh => exact invoke_statusAgrees hw _ a cyc hs
  | triggered hl hr hh => exact refresh hl (invoke_statusAgrees hw _ a cyc hs)
  | gated hl hr hh => exact refresh hl hs

/-- Reset gives `INV-STATUS` whatever stood before: it writes every core-owned byte, each from its own latch (R402). -/
theorem hardReset_statusAgrees (s : State C) : StatusAgrees cfg (hardReset cfg s) := by
  intro e he hh a ha
  rw [hardReset_status, resetStatus, foldl_refreshCell_read? cfg (resetLatches cfg) a.toNat
    (sentinel cfg (keyedGet false (resetLatches cfg) e.name))]
  · exact if_pos ⟨e, he, hh, by simp [ha]⟩
  · intro e' he' _ hk
    obtain ⟨b, hb, hba⟩ := Option.map_eq_some_iff.1 hk
    rw [BitVec.eq_of_toNat_eq hba] at hb
    rw [entry_eq_of_statusAddress hw he' he hb ha]

/-- Every line of a trace keeps `INV-STATUS`. -/
theorem runLine_statusAgrees (line : TraceLine C) {s : State C} (hs : StatusAgrees cfg s) :
    StatusAgrees cfg (runLine cfg line s) := by
  cases line with
  | bus a acc =>
    have hd := (dispatch_effect cfg a acc.kind acc.cycle s).statusAgrees hw hs
    exact hd.of_kept (busOp_status cfg a s acc) fun e _ _ => busOp_latch cfg a s acc e.name
  | dec call snap => exact decodeCall_statusAgrees call snap hs
  | reset => exact hardReset_statusAgrees hw s
  | tick => exact flashTick_statusAgrees hs

/-- Construction accepts an accepted configuration and gives the block after reset (R400). -/
theorem construct_of_accepted : construct (C := C) cfg = .next (hardReset cfg State.blank) := by
  simp only [wellFormedConfig] at hw
  simp [construct, hw]

end accepted

/-- Settles O41: reset gives `INV-STATUS`, and construction is a reset; a line keeps it because no two entries of an
accepted table share a name or an address. -/
theorem statusBytesAgreeForEveryAcceptedTable : Obligations.StatusBytesAgreeForEveryAcceptedTable := by
  intro C cfg hw
  exact ⟨⟨_, construct_of_accepted hw, hardReset_statusAgrees hw _⟩, hardReset_statusAgrees hw,
    fun s line hs => runLine_statusAgrees hw line hs⟩

end Sys2Proof.Machine
end

section
/-!
The soundness of the state, part by part: the addresses that the status region lists, the names of the latches, the
BankedRAM vector with its two coarse latches, the flash counter. Each part is kept by every line of a trace; the last
part of `State.Sound`, `INV-STATUS`, is above (O24, O25).
-/
namespace Sys2Proof.Machine

variable {C : Type}

section listing

/-- The status region in its canonical form, listing exactly the core-owned addresses of a table (R33, R34). -/
structure ListsCoreOwned (table : List SwitchEntry) (m : Memory) : Prop where
  canonical : Memory.wf m = true
  lists     : m.map Prod.fst = coreOwnedAddresses table

/-- A write to a core-owned address keeps the listing. -/
theorem ListsCoreOwned.write {table : List SwitchEntry} {m : Memory} (hm : ListsCoreOwned table m) {k : Nat}
    (hk : k ∈ coreOwnedAddresses table) (hr : Memory.inRegion k = true) (v : Byte) :
    ListsCoreOwned table (m.write k v) := by
  obtain ⟨hwf, hl⟩ := hm
  have hrise : Memory.rising m = true := by
    rw [Memory.wf, Bool.and_eq_true] at hwf
    exact hwf.1
  exact ⟨Memory.write_wf m k v hr hwf, (Memory.write_keys m k v hrise (hl ▸ hk)).trans hl⟩

/-- The status region is `0xC000 .. 0xC0FF` (R32). -/
theorem Memory.inRegion_iff (k : Nat) : Memory.inRegion k = true ↔ 0xC000 ≤ k ∧ k ≤ 0xC0FF := by
  rw [Memory.inRegion, Bool.and_eq_true, decide_eq_true_eq, decide_eq_true_eq, Memory.base, Memory.limit]

variable {cfg : Config} (hw : wellFormedConfig cfg)

include hw

/-- The status address of an entry without a handler is a core-owned one and lies in the region (R411). -/
theorem statusAddress_coreOwned {e : SwitchEntry} (he : e ∈ cfg.table) (hh : e.handler = none) {a : Address}
    (ha : e.statusAddress = some a) :
    a.toNat ∈ coreOwnedAddresses cfg.table ∧ Memory.inRegion a.toNat = true := by
  have hr := inRegion_of_accepted hw he (a := a) (by simp [entryAddresses, ha])
  have hown : coreOwned cfg.table a = true := List.any_eq_true.2 ⟨e, he, by simp [hh, ha]⟩
  refine ⟨?_, hr⟩
  rw [Memory.inRegion_iff] at hr
  simp only [coreOwnedAddresses, Memory.base, List.mem_filter, List.mem_map, List.mem_range]
  exact ⟨⟨a.toNat - 0xC000, by omega, by omega⟩, by simpa using hown⟩

/-- The refresh of an entry keeps the listing, unless the entry has a handler and a status address (log 29). -/
theorem refreshStatus_listsCoreOwned {e : SwitchEntry} (he : e ∈ cfg.table)
    (hp : e.handler = none ∨ e.statusAddress = none) {s : State C} (hs : ListsCoreOwned cfg.table s.status) :
    ListsCoreOwned cfg.table (refreshStatus cfg e s).status := by
  unfold refreshStatus
  split
  · next a ha =>
    have hh : e.handler = none := hp.resolve_right (by simp [ha])
    obtain ⟨hk, hr⟩ := statusAddress_coreOwned hw he hh ha
    exact hs.write hk hr _
  · exact hs

/-- The refresh of entries at a reset keeps the listing: it writes core-owned addresses only (R402). -/
theorem foldl_refreshCell_listsCoreOwned (l : List (SwitchName × Bool)) (es : List SwitchEntry)
    (hes : ∀ e ∈ es, e ∈ cfg.table) {m : Memory} (hm : ListsCoreOwned cfg.table m) :
    ListsCoreOwned cfg.table (es.foldl (refreshCell cfg l) m) := by
  induction es generalizing m with
  | nil => exact hm
  | cons e es ih =>
    refine ih (fun e' he' => hes e' (List.mem_cons_of_mem _ he')) ?_
    unfold refreshCell
    split
    · next hh ha =>
      obtain ⟨hk, hr⟩ := statusAddress_coreOwned hw (hes e List.mem_cons_self) hh ha
      exact hm.write hk hr _
    · exact hm

end listing

section names

/-- The latches are one for each entry of the table, in its order (R24, R25). -/
def LatchesNamed (cfg : Config) (s : State C) : Prop := s.latches.map Prod.fst = cfg.table.map SwitchEntry.name

variable {cfg : Config} {s : State C} (hs : LatchesNamed cfg s)

include hs

/-- The name of an entry of the table is carried by the latches. -/
theorem LatchesNamed.carries {e : SwitchEntry} (he : e ∈ cfg.table) : e.name ∈ s.latches.map Prod.fst :=
  hs ▸ List.mem_map_of_mem he

theorem LatchesNamed.refreshStatus (e : SwitchEntry) : LatchesNamed cfg (refreshStatus cfg e s) := by
  rw [LatchesNamed, refreshStatus_latches]
  exact hs

theorem LatchesNamed.setLatch {e : SwitchEntry} (he : e ∈ cfg.table) (v : Bool) :
    LatchesNamed cfg (s.setLatch e.name v) :=
  (keyedSet_keys _ _ _ (hs.carries he)).trans hs

theorem LatchesNamed.writeCoarse (n : SwitchName) (v : Bool) : LatchesNamed cfg (writeCoarse cfg n v s) := by
  unfold Machine.writeCoarse
  split
  · next e h =>
    obtain ⟨he, rfl⟩ := mem_of_entryNamed h
    exact (hs.setLatch he v).refreshStatus e
  · exact hs

/-- An external handler draws the latches of entries of the table, which are carried. -/
theorem LatchesNamed.invokeExternal (h : HandlerId) (a : Address) (cyc : C) :
    LatchesNamed cfg (invokeExternal cfg h a cyc s) := by
  have hd := foldl_drawLatch_names a h cyc (ownEntries cfg.table h)
    ((s.recordCall ⟨h, a, cyc⟩).drawPeripheral h a cyc) fun e he => hs.carries (List.mem_filter.1 he).1
  cases h <;> exact hd.trans hs

theorem LatchesNamed.invoke (h : HandlerId) (a : Address) (cyc : C) : LatchesNamed cfg (invoke cfg h a cyc s) := by
  by_cases hb : h = .bankedRam
  · subst hb
    have hb : LatchesNamed cfg (s.setBanked (bankVector (bankFragment a))) := hs
    exact (hb.writeCoarse _ _).writeCoarse _ _
  · rw [invoke_of_external cfg a s h cyc hb]
    exact hs.invokeExternal h a cyc

/-- Dispatch keeps the names of the latches. -/
theorem DispatchEffect.latchesNamed {a : Address} {k : Kind} {cyc : C} {t : State C}
    (ht : DispatchEffect cfg a k cyc s t) : LatchesNamed cfg t := by
  cases ht with
  | unmapped hl => exact hs
  | toggled v hl hr hh => exact (hs.setLatch (lookup_some hl).2 v).refreshStatus _
  | shown hl hh => exact hs.refreshStatus _
  | called hl hh => exact hs.invoke _ a cyc
  | triggered hl hr hh => exact (hs.invoke _ a cyc).refreshStatus _
  | gated hl hr hh => exact hs.refreshStatus _

end names

section bank

/-- `B` is a vector of the reference table or all 0, and the two coarse latches are what `B` says (R227). -/
structure BankAgrees (s : State C) : Prop where
  banked  : BankedLegal s.banked
  bankTwo : s.latch .bsrBank2 = (s.banked[0] || s.banked[1] || s.banked[2] || s.banked[3])
  readRam : s.latch .bsrReadRam = (s.banked[0] || s.banked[3] || s.banked[4] || s.banked[7])

/-- `BankAgrees` speaks of `B` and the two coarse latches only. -/
theorem BankAgrees.of_kept {s t : State C} (hs : BankAgrees s) (hb : t.banked = s.banked)
    (h2 : t.latch .bsrBank2 = s.latch .bsrBank2) (hr : t.latch .bsrReadRam = s.latch .bsrReadRam) : BankAgrees t := by
  obtain ⟨hs1, hs2, hs3⟩ := hs
  exact ⟨hb ▸ hs1, by rw [h2, hb, hs2], by rw [hr, hb, hs3]⟩

/-- The two coarse bits of a fragment are those of its vector (R226, R227(b), R227(c)). -/
theorem coarse_of_bankVector : ∀ frag : BitVec 4,
    bankTwoSelected frag =
      ((bankVector frag)[0] || (bankVector frag)[1] || (bankVector frag)[2] || (bankVector frag)[3]) ∧
    readRamActive frag =
      ((bankVector frag)[0] || (bankVector frag)[3] || (bankVector frag)[4] || (bankVector frag)[7]) := by
  decide

/-- The BankedRAM decode gives `BankAgrees` whatever stood before. -/
theorem bankedRam_bankAgrees (a : Address) (s : State C) : BankAgrees (bankedRam refConfig a s) := by
  obtain ⟨h2, hr⟩ := bankedRam_coarse a s
  obtain ⟨c2, cr⟩ := coarse_of_bankVector (bankFragment a)
  have hb := bankedRam_banked refConfig a s
  exact ⟨.inr ⟨_, hb⟩, by rw [h2, hb, c2], by rw [hr, hb, cr]⟩

/-- The entries of the two coarse latches have no handler and no off or on address (R170, R171). -/
theorem coarse_entry_plain : ∀ e ∈ refConfig.table, e.name = .bsrBank2 ∨ e.name = .bsrReadRam →
    e.handler = none ∧ e.offAddress = none ∧ e.onAddress = none := by
  decide

/-- An external handler leaves `B` and the two coarse latches, which are not its own. -/
theorem invokeExternal_bankAgrees (h : HandlerId) (a : Address) (cyc : C) {s : State C} (hs : BankAgrees s) :
    BankAgrees (invokeExternal refConfig h a cyc s) := by
  obtain ⟨-, -, hb, -⟩ := invokeExternal_frame refConfig a s h cyc
  have notOwn (n : SwitchName) (hn : n = .bsrBank2 ∨ n = .bsrReadRam) :
      ∀ e ∈ ownEntries refConfig.table h, e.name ≠ n := by
    rintro e he rfl
    obtain ⟨he, hh⟩ := List.mem_filter.1 he
    rw [(coarse_entry_plain e he hn).1] at hh
    cases hh
  exact hs.of_kept hb (invokeExternal_latch _ a s h cyc _ (notOwn _ (.inl rfl)))
    (invokeExternal_latch _ a s h cyc _ (notOwn _ (.inr rfl)))

theorem invoke_bankAgrees (h : HandlerId) (a : Address) (cyc : C) {s : State C} (hs : BankAgrees s) :
    BankAgrees (invoke refConfig h a cyc s) := by
  by_cases hb : h = .bankedRam
  · subst hb
    exact bankedRam_bankAgrees a s
  · rw [invoke_of_external refConfig a s h cyc hb]
    exact invokeExternal_bankAgrees h a cyc hs

theorem BankAgrees.refreshStatus {s : State C} (hs : BankAgrees s) (e : SwitchEntry) :
    BankAgrees (refreshStatus refConfig e s) :=
  hs.of_kept (refreshStatus_banked ..) (refreshStatus_latch ..) (refreshStatus_latch ..)

/-- An entry found in a role other than status has an off or an on address. -/
theorem hasTrigger_of_lookup {table : List SwitchEntry} {a : Address} {e : SwitchEntry} {role : Role}
    (hl : lookup table a = some (e, role)) (hr : role ≠ .status) : e.offAddress ≠ none ∨ e.onAddress ≠ none := by
  have ha := (lookup_some hl).1
  cases role with
  | off => exact .inl (by simp_all [answersAt])
  | on => exact .inr (by simp_all [answersAt])
  | status => exact absurd rfl hr

/-- Dispatch keeps `BankAgrees`: no default set or clear reaches a coarse latch. -/
theorem DispatchEffect.bankAgrees {a : Address} {k : Kind} {cyc : C} {s t : State C}
    (ht : DispatchEffect refConfig a k cyc s t) (hs : BankAgrees s) : BankAgrees t := by
  cases ht with
  | unmapped hl => exact hs.of_kept rfl rfl rfl
  | @toggled e role v hl hr hh =>
    have hne : ¬ (e.name = .bsrBank2 ∨ e.name = .bsrReadRam) := fun hn => by
      obtain ⟨-, hoff, hon⟩ := coarse_entry_plain e (lookup_some hl).2 hn
      exact (hasTrigger_of_lookup hl hr).elim (· hoff) (· hon)
    rw [not_or] at hne
    have hset : BankAgrees (s.setLatch e.name v) := hs.of_kept rfl (by simp [hne.1]) (by simp [hne.2])
    exact hset.refreshStatus e
  | shown hl hh => exact hs.refreshStatus _
  | called hl hh => exact invoke_bankAgrees _ a cyc hs
  | triggered hl hr hh => exact (invoke_bankAgrees _ a cyc hs).refreshStatus _
  | gated hl hr hh => exact hs.refreshStatus _

end bank

section reference

/-- In the reference table an entry with a handler and an off or on address has no status address (log 29). -/
theorem triggered_entry_statusless : ∀ e ∈ refConfig.table, e.offAddress ≠ none ∨ e.onAddress ≠ none →
    e.handler = none ∨ e.statusAddress = none := by
  decide

/-- The BankedRAM decode writes the status bytes of the two coarse latches, which have no handler. -/
theorem writeCoarse_listsCoreOwned {n : SwitchName} (hn : n = .bsrBank2 ∨ n = .bsrReadRam) (v : Bool) {s : State C}
    (hs : ListsCoreOwned refTable s.status) : ListsCoreOwned refTable (writeCoarse refConfig n v s).status := by
  unfold writeCoarse
  split
  · next e h =>
    obtain ⟨he, rfl⟩ := mem_of_entryNamed h
    exact refreshStatus_listsCoreOwned refConfig_wellFormed he (.inl (coarse_entry_plain e he hn).1)
      (s := s.setLatch e.name v) hs
  · exact hs

theorem invoke_listsCoreOwned (h : HandlerId) (a : Address) (cyc : C) {s : State C}
    (hs : ListsCoreOwned refTable s.status) : ListsCoreOwned refTable (invoke refConfig h a cyc s).status := by
  by_cases hb : h = .bankedRam
  · subst hb
    have hb : ListsCoreOwned refTable (s.setBanked (bankVector (bankFragment a))).status := hs
    exact writeCoarse_listsCoreOwned (.inr rfl) _ (writeCoarse_listsCoreOwned (.inl rfl) _ hb)
  · obtain ⟨-, -, -, hst, -⟩ := invokeExternal_frame refConfig a s h cyc
    rw [invoke_of_external refConfig a s h cyc hb, hst]
    exact hs

/-- Dispatch keeps the listing of the status region. -/
theorem DispatchEffect.listsCoreOwned {a : Address} {k : Kind} {cyc : C} {s t : State C}
    (ht : DispatchEffect refConfig a k cyc s t) (hs : ListsCoreOwned refTable s.status) :
    ListsCoreOwned refTable t.status := by
  have refresh {e : SwitchEntry} {role : Role} (hl : lookup refConfig.table a = some (e, role))
      (hp : e.handler = none ∨ e.statusAddress = none) {u : State C} (hu : ListsCoreOwned refTable u.status) :
      ListsCoreOwned refTable (refreshStatus refConfig e u).status :=
    refreshStatus_listsCoreOwned refConfig_wellFormed (lookup_some hl).2 hp hu
  have statusless {e : SwitchEntry} {role : Role} (hl : lookup refConfig.table a = some (e, role))
      (hr : role ≠ .status) : e.handler = none ∨ e.statusAddress = none :=
    triggered_entry_statusless e (lookup_some hl).2 (hasTrigger_of_lookup hl hr)
  cases ht with
  | unmapped hl => exact hs
  | @toggled e _ v hl hr hh => exact refresh hl (.inl hh) (u := s.setLatch e.name v) hs
  | shown hl hh => exact refresh hl (.inl hh) hs
  | called hl hh => exact invoke_listsCoreOwned _ a cyc hs
  | triggered hl hr hh => exact refresh hl (statusless hl hr) (invoke_listsCoreOwned _ a cyc hs)
  | gated hl hr hh => exact refresh hl (statusless hl hr) hs

end reference

section sound

variable {s : State C}

/-- The parts of soundness put together. -/
theorem State.Sound.of_parts (hl : ListsCoreOwned refTable s.status) (ha : StatusAgrees refConfig s)
    (hn : LatchesNamed refConfig s) (hf : s.flashCount < refConfig.flashPeriod) (hb : BankAgrees s) :
    s.Sound refConfig :=
  ⟨hl.canonical, hl.lists, ha, hn, hf, hb.banked, hb.bankTwo, hb.readRam⟩

theorem State.Sound.listsCoreOwned (hs : s.Sound refConfig) : ListsCoreOwned refTable s.status :=
  ⟨hs.canonical, hs.lists⟩

theorem State.Sound.bankAgrees (hs : s.Sound refConfig) : BankAgrees s := ⟨hs.banked, hs.bankTwo, hs.readRam⟩

/-- A bus access keeps a sound state sound: it is Dispatch, but for what a read samples. -/
theorem State.Sound.busOp (hs : s.Sound refConfig) (a : Address) (acc : BusAccess C) :
    (busOp refConfig a acc s).Sound refConfig := by
  have ht := dispatch_effect refConfig a acc.kind acc.cycle s
  have hn : LatchesNamed refConfig (dispatch refConfig a acc.kind acc.cycle s) := ht.latchesNamed hs.latchNames
  have hf := (busOp_videoKept refConfig a s acc).flashCount
  refine .of_parts ?_ (runLine_statusAgrees refConfig_wellFormed (.bus a acc) hs.agrees) ?_ (hf ▸ hs.flashBound)
    ((ht.bankAgrees hs.bankAgrees).of_kept (busOp_banked ..) (busOp_latch ..) (busOp_latch ..))
  · rw [busOp_status]
    exact ht.listsCoreOwned hs.listsCoreOwned
  · rw [LatchesNamed, busOp_latches]
    exact hn

/-- A decode call touches nothing that soundness speaks of. -/
theorem State.Sound.decodeCall (hs : s.Sound refConfig) (call : DecoderCall) (snap : List Byte) :
    (decodeCall refConfig call snap s).Sound refConfig := by
  obtain ⟨o, es, he, -⟩ := decodeCall_eq refConfig call snap s
  rw [he]
  exact { hs with }

/-- The two coarse latches are 0 after a reset (R402). -/
theorem resetLatches_coarse : keyedGet false (resetLatches refConfig) .bsrBank2 = false ∧
    keyedGet false (resetLatches refConfig) .bsrReadRam = false := by
  decide

/-- A reset gives a sound state where its status region lists the core-owned bytes. -/
theorem hardReset_sound (hl : ListsCoreOwned refTable (resetStatus refConfig s.status)) :
    (hardReset refConfig s).Sound refConfig :=
  .of_parts (by rwa [hardReset_status]) (hardReset_statusAgrees refConfig_wellFormed s)
    (by simp [LatchesNamed, resetLatches]) (by simp [refConfig])
    ⟨.inl rfl, resetLatches_coarse.1, resetLatches_coarse.2⟩

/-- A tick keeps the flash counter below its period (R36, R298). -/
theorem flashTick_flashCount_lt {cfg : Config} (h : s.flashCount < cfg.flashPeriod) :
    (flashTick cfg s).flashCount < cfg.flashPeriod := by
  unfold flashTick
  split
  · exact Nat.zero_lt_of_lt h
  · exact Nat.lt_of_le_of_ne h ‹_›

/-- A tick keeps a sound state sound. -/
theorem State.Sound.flashTick (hs : s.Sound refConfig) : (flashTick refConfig s).Sound refConfig := by
  have hf := flashTick_flashCount_lt hs.flashBound
  obtain ⟨n, p, he⟩ := flashTick_eq refConfig s
  rw [he] at hf ⊢
  exact { hs with flashBound := hf }

/-- Every line of a trace keeps a sound state sound. -/
theorem State.Sound.runLine (hs : s.Sound refConfig) (line : TraceLine C) :
    (runLine refConfig line s).Sound refConfig := by
  cases line with
  | bus a acc => exact hs.busOp a acc
  | dec call snap => exact hs.decodeCall call snap
  | reset =>
    exact hardReset_sound (foldl_refreshCell_listsCoreOwned refConfig_wellFormed _ _ (fun _ he => he) hs.listsCoreOwned)
  | tick => exact hs.flashTick

end sound

/-- Settles O24: a step takes a line off the trace, which soundness does not speak of, and runs it. -/
theorem everyStepKeepsTheStateSound : Obligations.EveryStepKeepsTheStateSound := by
  intro s t hs hstep
  unfold step at hstep
  split at hstep
  · cases hstep
    exact hs
  · next line rest _ =>
    rw [exec_decode] at hstep
    cases hstep
    have hrest : ({ s with pending := rest } : State).Sound refConfig := { hs with }
    exact hrest.runLine line

/-- Settles O25: the state after reset is a reset of the blank one, and the status region that it writes is evaluated. -/
theorem resetStateIsSound : Obligations.ResetStateIsSound :=
  hardReset_sound (s := State.blank) ⟨by decide +kernel, by decide +kernel⟩

end Sys2Proof.Machine
end

section
/-!
The status region read off the latches (O34): it lists the core-owned addresses, and `INV-STATUS` gives the byte of
each.
-/
namespace Sys2Proof.Machine

variable {C : Type}

/-- An address that no cell of the status region carries holds no stored byte. -/
theorem Memory.read?_eq_none_of_not_mem {m : Memory} {k : Nat} (h : k ∉ m.map Prod.fst) : m.read? k = none := by
  induction m with
  | nil => rfl
  | cons c m ih =>
    obtain ⟨a, b⟩ := c
    simp only [List.map_cons, List.mem_cons, not_or] at h
    obtain ⟨hne, hm⟩ := h
    rw [Memory.read?, if_neg (Ne.symm hne), ih hm]

/-- A core-owned address is the status address of an entry without a handler (R33). -/
theorem exists_entry_of_mem_coreOwnedAddresses {table : List SwitchEntry} {k : Nat}
    (hk : k ∈ coreOwnedAddresses table) :
    ∃ e ∈ table, e.handler = none ∧ ∃ a, e.statusAddress = some a ∧ a.toNat = k := by
  simp only [coreOwnedAddresses, coreOwned, List.mem_filter, List.mem_map, List.mem_range, Memory.base,
    List.any_eq_true, Bool.and_eq_true, Option.isNone_iff_eq_none, beq_iff_eq] at hk
  obtain ⟨⟨i, hi, rfl⟩, e, he, hh, ha⟩ := hk
  exact ⟨e, he, hh, _, ha, by rw [BitVec.toNat_ofNat]; omega⟩

section sameLatches

variable {cfg : Config} {s s' : State C}

/-- At a core-owned address `INV-STATUS` makes states with the same latches read the same (R33). -/
theorem StatusAgrees.read?_eq_of_latches_eq (hs : StatusAgrees cfg s) (hs' : StatusAgrees cfg s')
    (hl : s.latches = s'.latches) {k : Nat} (hk : k ∈ coreOwnedAddresses cfg.table) :
    s.status.read? k = s'.status.read? k := by
  obtain ⟨e, he, hh, a, ha, rfl⟩ := exists_entry_of_mem_coreOwnedAddresses hk
  have hlatch : s.latch e.name = s'.latch e.name := by rw [State.latch, State.latch, hl]
  rw [hs e he hh a ha, hs' e he hh a ha, hlatch]

/-- Sound states with the same latches have the same status region, under any configuration (R86). -/
theorem State.Sound.status_eq_of_latches_eq (hs : s.Sound cfg) (hs' : s'.Sound cfg) (hl : s.latches = s'.latches) :
    s.status = s'.status := by
  have hr := (Bool.and_eq_true_iff.1 hs.canonical).1
  have hr' := (Bool.and_eq_true_iff.1 hs'.canonical).1
  refine Memory.ext_of_rising _ _ hr hr' fun k => ?_
  by_cases hk : k ∈ coreOwnedAddresses cfg.table
  · exact hs.agrees.read?_eq_of_latches_eq hs'.agrees hl hk
  · have hnone : s.status.read? k = none := Memory.read?_eq_none_of_not_mem (hs.lists ▸ hk)
    have hnone' : s'.status.read? k = none := Memory.read?_eq_none_of_not_mem (hs'.lists ▸ hk)
    rw [hnone, hnone']

end sameLatches

/-- Settles O34: the canonical form and the listed addresses leave only the bytes, which `INV-STATUS` reads off the
latches. -/
theorem savedStateDeterminesTheStatusBytes : Obligations.SavedStateDeterminesTheStatusBytes :=
  fun _ _ hs hs' hl => hs.status_eq_of_latches_eq hs' hl

end Sys2Proof.Machine
end

section
/-!
The layout of the pixel buffer (R63): blocks of one length laid end to end, pixels of 4 bytes in rows of 560 (O48).
-/
namespace Sys2Proof.Machine

open Sys2Proof.Statements

section blocks

variable {α β : Type} {f : α → List β} {n : Nat} {l : List α} (hf : ∀ a ∈ l, (f a).length = n)

include hf

/-- Blocks of length `n` laid end to end. -/
theorem length_flatMap_blocks : (l.flatMap f).length = n * l.length := by
  rw [List.length_flatMap, List.map_congr_left hf, List.map_const', List.sum_replicate, smul_eq_mul, Nat.mul_comm]

/-- Dropping whole blocks drops their sources. -/
theorem drop_flatMap_blocks (i : Nat) : (l.flatMap f).drop (n * i) = (l.drop i).flatMap f := by
  induction l generalizing i with
  | nil => simp
  | cons a l ih =>
    cases i with
    | zero => simp
    | succ i =>
      have ha : (f a).length = n := hf a List.mem_cons_self
      rw [List.flatMap_cons, Nat.mul_succ, Nat.add_comm, ← ha, List.drop_length_add_append, ha,
        ih fun b hb => hf b (List.mem_cons_of_mem a hb), List.drop_succ_cons]

/-- What is read inside block `i` is read off that block. -/
theorem take_drop_flatMap_blocks {i j m : Nat} {a : α} (ha : l[i]? = some a) (hjm : j + m ≤ n) :
    ((l.flatMap f).drop (n * i + j)).take m = ((f a).drop j).take m := by
  obtain ⟨hi, rfl⟩ := List.getElem?_eq_some_iff.1 ha
  have hlen : (f l[i]).length = n := hf _ (List.getElem_mem hi)
  rw [← List.drop_drop, drop_flatMap_blocks hf, List.drop_eq_getElem_cons hi, List.flatMap_cons,
    List.drop_append_of_le_length (by omega), List.take_append_of_le_length (by rw [List.length_drop]; omega)]

end blocks

section palette

theorem pixelBytes_length (alpha : Byte) (c : Rgb) : (pixelBytes alpha c).length = 4 := rfl

variable (cfg : Config) (pal : List Rgb)

/-- The bytes of one row of indices, pixel by pixel (R275). -/
def rowBytes (row : List Nat) : List Byte := row.flatMap fun i => pixelBytes cfg.alpha (pal.getD i black)

/-- The palette stage is the bytes of its rows, row by row. -/
theorem palettize_bytes (rows : List (List Nat)) :
    (palettize cfg pal rows).bytes = rows.flatMap (rowBytes cfg pal) := rfl

theorem rowBytes_length (row : List Nat) : (rowBytes cfg pal row).length = 4 * row.length :=
  length_flatMap_blocks fun _ _ => pixelBytes_length ..

/-- The pixel at column `x` of a row stands at offset `4 * x` of its bytes. -/
theorem rowBytes_pixel {row : List Nat} {x i : Nat} {c : Rgb} (hx : row[x]? = some i) (hi : pal[i]? = some c) :
    ((rowBytes cfg pal row).drop (4 * x)).take 4 = pixelBytes cfg.alpha c := by
  rw [rowBytes, ← Nat.add_zero (4 * x), take_drop_flatMap_blocks (fun _ _ => pixelBytes_length ..) hx le_rfl,
    List.getD_eq_getElem?_getD, hi]
  rfl

variable {cfg pal} {rows : List (List Nat)} (hrows : ∀ row ∈ rows, row.length = 560)

include hrows

/-- A row of 560 pixels takes 4 * 560 bytes (R63). -/
theorem rowBytes_length_of_width : ∀ row ∈ rows, (rowBytes cfg pal row).length = 4 * 560 := fun row hrow => by
  rw [rowBytes_length, hrows row hrow]

theorem palettize_bytes_length : (palettize cfg pal rows).bytes.length = 4 * 560 * rows.length := by
  rw [palettize_bytes, length_flatMap_blocks (rowBytes_length_of_width hrows)]

/-- The four bytes of a pixel of the buffer are those of its palette entry (R63, R275). -/
theorem pixelAt_palettize {y x i : Nat} {row : List Nat} {c : Rgb} (hy : rows[y]? = some row)
    (hx : row[x]? = some i) (hi : pal[i]? = some c) :
    pixelAt (palettize cfg pal rows) y x = pixelBytes cfg.alpha c := by
  have hlt : x < 560 := hrows row (List.mem_of_getElem? hy) ▸ (List.getElem?_eq_some_iff.1 hx).1
  have hoffset : 4 * (560 * y + x) = 4 * 560 * y + 4 * x := by omega
  rw [pixelAt, palettize_bytes, hoffset,
    take_drop_flatMap_blocks (rowBytes_length_of_width hrows) hy (by omega), rowBytes_pixel cfg pal hx hi]

end palette

/-- Settles O48: a row is a block of the buffer, and a pixel is a block of its row. -/
theorem paletteStagePlacesEveryPixel : Obligations.PaletteStagePlacesEveryPixel := by
  intro cfg pal rows hrows
  exact ⟨palettize_bytes_length hrows, fun _ _ _ _ _ hy hx hi => pixelAt_palettize hrows hy hx hi⟩

end Sys2Proof.Machine
end

section
/-!
The decoder and the encoder are inverse to each other (O2, O3), and the row of an address is what `Lookup` finds (O4):
every address row agrees with its own address, and a decode request with the length of its snapshot.
-/
namespace Sys2Proof

open Sys2Proof.Machine

/-- The address rows have distinct addresses (R91). -/
theorem nodup_patterns : (ioRows.map IoRow.pattern).Nodup := by decide

/-- The decoder finds a row at its own address. -/
theorem decodeBus_pattern {r : IoRow} (hr : r ∈ ioRows) (acc : BusAccess) : decodeBus r.pattern acc = r.build acc := by
  unfold decodeBus
  split
  · next r' hf =>
    obtain ⟨hr', hp⟩ := find_row hf
    rw [List.inj_on_of_nodup_map nodup_patterns hr' hr hp]
  · next hf => exact absurd ((IoRow.answers_iff hr _).2 rfl) (List.find?_eq_none.1 hf r hr)

/-- At an address that no entry of the table answers the decoder gives `UNMAPPED` (R97). -/
theorem decodeBus_of_lookup_none {a : Address} (h : lookup refTable a = none) (acc : BusAccess) :
    decodeBus a acc = .unmapped a acc := by
  rw [decodeBus, (find_row_none_iff a).2 h]

/-- At an address that an entry of the table answers the decoder gives the row of the address. -/
theorem decodeBus_of_lookup_some {a : Address} {hit : SwitchEntry × Role} (h : lookup refTable a = some hit) :
    ∃ r ∈ ioRows, r.pattern = a ∧ ∀ acc, decodeBus a acc = r.build acc := by
  have hf : ioRows.find? (fun r => r.answers a) ≠ none := fun hn => by simp [(find_row_none_iff a).1 hn] at h
  obtain ⟨r, hr⟩ := Option.ne_none_iff_exists'.1 hf
  exact ⟨r, (find_row hr).1, (find_row hr).2, fun acc => by rw [decodeBus, hr]⟩

/-- An operation that is encoded as a bus line is `UNMAPPED`, or that of the address row in its own place of the opcode
table. -/
theorem row_of_encode_bus {i : Instr} {a : Address} {acc : BusAccess} (h : encode i = .bus a acc) :
    i = .unmapped a acc ∨ ∃ r, ioRows[i.ctorIdx]? = some r ∧ r.pattern = a ∧ r.build acc = i := by
  cases i <;> cases h
  case unmapped => exact .inl rfl
  all_goals exact .inr ⟨_, rfl, rfl, rfl⟩

/-- A well-formed operation that is encoded as a decode request is what the decoder reads from it (R100, R102). -/
theorem decodeSnapshot_of_encode {i : Instr} (hw : i.wellFormed = true) {call : DecoderCall} {snap : List Byte}
    (h : encode i = .dec call snap) : decodeSnapshot call snap = i := by
  cases i <;> cases h
  case decEmpty => rfl
  case decBadLen =>
    cases call <;> simp_all [Instr.wellFormed, decodeSnapshot, DecoderCall.decoder, DecoderKind.lengths]
  all_goals
    have hlen := beq_iff_eq.1 hw
    simp [decodeSnapshot, hlen]

/-- Decode of encode gives every well-formed operation back (R91, R100). -/
theorem decode_encode {i : Instr} (hw : i.wellFormed = true) : decode (encode i) = i := by
  cases h : encode i with
  | bus a acc =>
    obtain rfl | ⟨r, hr, rfl, hi⟩ := row_of_encode_bus h
    · exact decodeBus_of_lookup_none (Option.isNone_iff_eq_none.1 hw) acc
    · exact (decodeBus_pattern (List.mem_of_getElem? hr) acc).trans hi
  | dec call snap => exact decodeSnapshot_of_encode hw h
  | reset => exact (eq_reset_of_encode h).symm
  | tick => cases i <;> cases h; rfl

/-- A request for a decode is encoded as it was presented. -/
theorem encode_decodeSnapshot (call : DecoderCall) (snap : List Byte) :
    encode (decodeSnapshot call snap) = .dec call snap := by
  unfold decodeSnapshot
  split
  · next h => rw [List.length_eq_zero_iff.1 h]; rfl
  · cases call <;> dsimp only <;> repeat' split
    all_goals rfl

/-- Encode of decode gives every line back (R91, R100, R102). -/
theorem encode_decode (line : TraceLine) : encode (decode line) = line := by
  cases line with
  | bus a acc => exact encode_decodeBus a acc
  | dec call snap => exact encode_decodeSnapshot call snap
  | reset => rfl
  | tick => rfl

/-- The address rows take any access. -/
theorem wellFormed_row {r : IoRow} (hr : r ∈ ioRows) (acc : BusAccess) : (r.build acc).wellFormed = true := by
  have rows : ioRows.all (fun r => (r.build acc).wellFormed) = true := rfl
  exact List.all_eq_true.1 rows r hr

/-- What is decoded from a bus line is well-formed: `UNMAPPED` takes only an address that `Lookup` does not find. -/
theorem wellFormed_decodeBus (a : Address) (acc : BusAccess) : (decodeBus a acc).wellFormed = true := by
  cases h : lookup refTable a with
  | none => rw [decodeBus_of_lookup_none h, Instr.wellFormed, h]; rfl
  | some hit =>
    obtain ⟨r, hr, -, hd⟩ := decodeBus_of_lookup_some h
    rw [hd, wellFormed_row hr]

/-- What is decoded from a decode request is well-formed: a row of the decoder takes the snapshots of its length, and
`BADLEN` those of a positive length that no row has. -/
theorem wellFormed_decodeSnapshot (call : DecoderCall) (snap : List Byte) :
    (decodeSnapshot call snap).wellFormed = true := by
  unfold decodeSnapshot
  split
  · rfl
  · cases call <;> dsimp only <;> repeat' split
    all_goals simp_all [Instr.wellFormed, DecoderCall.decoder, DecoderKind.lengths]

/-- What is decoded is well-formed. -/
theorem wellFormed_decode (line : TraceLine) : (decode line).wellFormed = true := by
  cases line with
  | bus a acc => exact wellFormed_decodeBus a acc
  | dec call snap => exact wellFormed_decodeSnapshot call snap
  | reset => rfl
  | tick => rfl

/-- An address row names the switch and the role that `Lookup` finds at its address (R91, R131). -/
theorem switchRole_row {r : IoRow} (hr : r ∈ ioRows) (acc : BusAccess) :
    (r.build acc).switchRole = (lookup refTable r.pattern).map fun hit => (hit.1.name, hit.2) := by
  have rows : ioRows.all (fun r => (r.build acc).switchRole ==
      (lookup refTable r.pattern).map fun hit => (hit.1.name, hit.2)) = true := rfl
  exact beq_iff_eq.1 (List.all_eq_true.1 rows r hr)

/-- The decoder selects the row of the switch and the role that `Lookup` finds (R91, R131). -/
theorem switchRole_decodeBus (a : Address) (acc : BusAccess) :
    (decodeBus a acc).switchRole = (lookup refTable a).map fun hit => (hit.1.name, hit.2) := by
  cases h : lookup refTable a with
  | none => rw [decodeBus_of_lookup_none h]; rfl
  | some hit =>
    obtain ⟨r, hr, rfl, hd⟩ := decodeBus_of_lookup_some h
    rw [hd, switchRole_row hr, h]

/-- `Lookup` of the reference table finds a switch and a role exactly when the entry of that name has the address in
that role: the table is accepted, so no second entry has it (R23, R131). -/
theorem lookup_refTable_iff (a : Address) (n : SwitchName) (role : Role) :
    (lookup refTable a).map (fun hit => (hit.1.name, hit.2)) = some (n, role) ↔
      ∃ e ∈ refTable, e.name = n ∧ answersAt a role e = true := by
  constructor
  · intro h
    obtain ⟨⟨e, role'⟩, hl, heq⟩ := Option.map_eq_some_iff.1 h
    cases heq
    obtain ⟨hans, he⟩ := lookup_some hl
    exact ⟨e, he, rfl, hans⟩
  · rintro ⟨e, he, rfl, hans⟩
    have hl : lookup refTable a = some (e, role) := lookup_of_answers refConfig_wellFormed he hans
    rw [hl]; rfl

/-- Settles O3: both halves by the kind of the line. -/
theorem encodeOfDecodeIsTheLine : Obligations.EncodeOfDecodeIsTheLine :=
  fun line => ⟨encode_decode line, wellFormed_decode line⟩

/-- Settles O4: the rows agree with `Lookup` at their addresses, and `Lookup` with the entries of the accepted table. -/
theorem decodedRowIsTheLookup : Obligations.DecodedRowIsTheLookup := by
  intro a acc
  have hrow : (decode (.bus a acc)).switchRole = (lookup refTable a).map fun hit => (hit.1.name, hit.2) :=
    switchRole_decodeBus a acc
  exact ⟨fun n role => hrow ▸ lookup_refTable_iff a n role, hrow⟩

end Sys2Proof
end

section
/-!
The number of a bus operation (R122) with the round trip of the operations (O2), and words written out from the opcode
table (O5).
-/
namespace Sys2Proof

/-- Below 2^17, bit 16 says whether a number reaches 2^16. -/
theorem testBit_sixteen {n : Nat} (hn : n < 0x20000) : n.testBit 16 = decide (0x10000 ≤ n) := by
  rw [Nat.testBit_eq_decide_div_mod_eq, decide_eq_decide]
  omega

theorem busNumber_rd (a : Address) : busNumber .rd a = a.toNat := Nat.zero_add _

theorem busNumber_wr (a : Address) : busNumber .wr a = 0x10000 + a.toNat := rfl

variable {C : Type} {n : Nat} (data : Byte) (cyc : C)

/-- A number below 2^16 is that of a read at the address it gives (R122). -/
theorem ofNumber_of_lt (hn : n < 0x10000) :
    TraceLine.ofNumber n data cyc = .ok (.bus (BitVec.ofNat 16 n) (.rd cyc)) := by
  have hbit : n.testBit 16 = false := by rw [testBit_sixteen (by omega)]; simpa using hn
  simp [TraceLine.ofNumber, hbit, show n < 0x20000 by omega]

/-- A number of 17 bits from 2^16 on is that of a write at the address in its low 16 bits (R122). -/
theorem ofNumber_of_le (hle : 0x10000 ≤ n) (hlt : n < 0x20000) :
    TraceLine.ofNumber n data cyc = .ok (.bus (BitVec.ofNat 16 n) (.wr data cyc)) := by
  have hbit : n.testBit 16 = true := by rw [testBit_sixteen hlt]; simpa using hle
  simp [TraceLine.ofNumber, hbit, hlt]

/-- The number of a read gives its line back. -/
theorem ofNumber_busNumber_rd (a : Address) :
    TraceLine.ofNumber (busNumber .rd a) data cyc = .ok (.bus a (.rd cyc)) := by
  rw [busNumber_rd, ofNumber_of_lt data cyc a.isLt, BitVec.ofNat_toNat, BitVec.setWidth_eq]

/-- The number of a write gives its line back, with its data byte. -/
theorem ofNumber_busNumber_wr (a : Address) :
    TraceLine.ofNumber (busNumber .wr a) data cyc = .ok (.bus a (.wr data cyc)) := by
  have hlow : BitVec.ofNat 16 (0x10000 + a.toNat) = a := by bv_omega
  rw [busNumber_wr, ofNumber_of_le data cyc (by omega) (by omega), hlow]

/-- Every number of 17 bits is that of a bus operation. -/
theorem exists_bus_of_lt (hn : n < 0x20000) :
    ∃ a acc, TraceLine.ofNumber n data cyc = .ok (.bus a acc) ∧ busNumber acc.kind a = n := by
  by_cases hlt : n < 0x10000
  · refine ⟨_, _, ofNumber_of_lt data cyc hlt, ?_⟩
    rw [BusAccess.kind, busNumber_rd, BitVec.toNat_ofNat]
    omega
  · refine ⟨_, _, ofNumber_of_le data cyc (by omega) hn, ?_⟩
    rw [BusAccess.kind, busNumber_wr, BitVec.toNat_ofNat]
    omega

/-- Settles O2: the round trip by the line of the operation, the numbers by bit 16. -/
theorem decodeOfEncodeIsTheOperation : Obligations.DecodeOfEncodeIsTheOperation := by
  refine ⟨fun _ hw => decode_encode hw, fun a data cyc => ?_, fun n data cyc => ?_⟩
  · exact ⟨busNumber_rd a, busNumber_wr a, ofNumber_busNumber_rd data cyc a, ofNumber_busNumber_wr data cyc a⟩
  · split
    · next hn => exact exists_bus_of_lt data cyc hn
    · next hn => exact if_neg hn

/-- Settles O5 by evaluation of the decoder. -/
theorem writtenOutWordsDecode : Obligations.WrittenOutWordsDecode := by
  unfold Obligations.WrittenOutWordsDecode
  decide

end Sys2Proof
end

section
/-!
A step runs the next line of the trace (O1), and a program its lines under its own configuration (O60).
-/
namespace Sys2Proof.Machine

/-- A step with a line pending runs the operation that the line decodes to on the rest of the trace (R120). -/
theorem step_of_pending_cons {s : State} {line : TraceLine} {rest : List TraceLine} (h : s.pending = line :: rest) :
    step s = exec (decode line) { s with pending := rest } := by
  rw [step, h]

/-- A step with no line pending is idle (R390). -/
theorem step_of_pending_nil {s : State} (h : s.pending = []) : step s = .next s := by
  rw [step, h]

/-- A step of the machine is the step under the configuration of this hardware (R120). -/
theorem step_eq_stepUnder (s : State) : step s = stepUnder refConfig s := by
  cases h : s.pending with
  | nil => rw [step_of_pending_nil h, stepUnder, h]
  | cons line rest => rw [step_of_pending_cons h, stepUnder, h, exec_decode]

/-- What a run appended to the records is what the result of the run holds (R120). -/
theorem RecordsGrow.append_resultOf {C : Type} {s t : State C} (h : RecordsGrow s t) :
    t.returned = s.returned ++ (resultOf s t).returned ∧ t.invoked = s.invoked ++ (resultOf s t).invoked ∧
      t.outputs = s.outputs ++ (resultOf s t).outputs := by
  obtain ⟨⟨_, hr⟩, ⟨_, hi⟩, _, ho⟩ := h
  simp [resultOf, hr, hi, ho]

/-- Settles O1: the two cases of the pending trace; what is decoded is always well-formed. -/
theorem stepRunsTheNextLine : Obligations.StepRunsTheNextLine :=
  ⟨fun _ line _ h => ⟨step_of_pending_cons h, wellFormed_decode line⟩, fun _ => step_of_pending_nil⟩

/-- Settles O60: the records of a trace only grow, and a line under the configuration of this hardware is what `exec`
does with the operation it decodes to. -/
theorem programRunsUnderItsConfiguration : Obligations.ProgramRunsUnderItsConfiguration := by
  refine ⟨fun C p hw => ?_, fun C p d hd => ?_, exec_decode, step_eq_stepUnder⟩
  · refine ⟨resultOf p.start (runTrace p.config p.lines p.start), by rw [Program.run, hw], rfl, ?_⟩
    exact (runTrace_recordsGrow p.config p.lines p.start).append_resultOf
  · rw [Program.run, construct, hd]
    exact ⟨rfl, rfl⟩

end Sys2Proof.Machine
end

section
/-!
An access to an address of a switch without a handler, over any table: the default set or clear behind the gate, the
refresh of the status byte from the latch, and nothing else (O35 to O39).
-/
namespace Sys2Proof.Machine

variable {C : Type} {cfg : Config} {a : Address} {e : SwitchEntry}

/-- The role whose access gives the latch a value: the on address sets it, the off address clears it (R135). -/
def triggerRole (v : Bool) : Role := if v then .on else .off

theorem LatchesKeptBut.mono {p q : SwitchName → Prop} {s t : State C} (h : LatchesKeptBut p s t)
    (hpq : ∀ n, p n → q n) : LatchesKeptBut q s t := fun n hn => h n (mt (hpq n) hn)

/-- Setting a latch leaves every other latch. -/
theorem setLatch_latchesKeptBut (s : State C) (n : SwitchName) (v : Bool) :
    LatchesKeptBut (· = n) s (s.setLatch n v) := fun m hm => by
  rw [State.setLatch_latch, if_neg (Ne.symm hm)]

/-- The refresh of a status byte changes the status region only. -/
theorem refreshStatus_eq (cfg : Config) (e : SwitchEntry) (s : State C) :
    refreshStatus cfg e s = { s with status := (refreshStatus cfg e s).status } := by
  unfold refreshStatus
  split <;> rfl

/-- A switch without a status address has no byte to refresh. -/
theorem refreshStatus_of_no_address (hst : e.statusAddress = none) (s : State C) : refreshStatus cfg e s = s := by
  rw [refreshStatus, hst]

/-- The refresh writes the sentinel of the latch at the entry's status address and no other byte. -/
theorem refreshStatus_at {st : Address} (hst : e.statusAddress = some st) (s : State C) :
    (refreshStatus cfg e s).status.read? st.toNat = some (sentinel cfg (s.latch e.name)) ∧
      StatusKeptBut (· = st.toNat) s (refreshStatus cfg e s) := by
  refine ⟨by simp [refreshStatus_read?, hst], fun k hk => ?_⟩
  rw [refreshStatus_read?, if_neg (by simpa [hst] using Ne.symm hk)]

/-- At an off or on address Dispatch runs step 2 (R133). -/
theorem dispatch_of_trigger {v : Bool} (hl : lookup cfg.table a = some (e, triggerRole v)) (k : Kind) (cyc : C)
    (s : State C) : dispatch cfg a k cyc s = triggeredAccess cfg e v a k cyc s := by
  cases v with
  | false => exact dispatch_of_off cfg e a s k cyc hl
  | true => exact dispatch_of_on cfg e a s k cyc hl

section plain

variable (hh : e.handler = none)

include hh

/-- At an off or on address Dispatch sets or clears the latch where the gate lets it, then refreshes (R135, R138). -/
theorem dispatch_of_plain_trigger {v : Bool} (hl : lookup cfg.table a = some (e, triggerRole v)) (k : Kind) (cyc : C)
    (s : State C) : dispatch cfg a k cyc s =
      refreshStatus cfg e (if fires cfg.policy e.writeOnly k then s.setLatch e.name v else s) := by
  rw [dispatch_of_trigger hl, triggeredAccess, hh]

/-- Where the gate fires, the latch takes the value of the address (R135). -/
theorem dispatch_of_plain_fires {v : Bool} {k : Kind} (hl : lookup cfg.table a = some (e, triggerRole v))
    (hf : fires cfg.policy e.writeOnly k = true) (cyc : C) (s : State C) :
    dispatch cfg a k cyc s = refreshStatus cfg e (s.setLatch e.name v) := by
  rw [dispatch_of_plain_trigger hh hl, if_pos hf]

/-- Where the gate is closed, the status byte is refreshed and nothing else happens (R136, R138). -/
theorem dispatch_of_plain_closed {v : Bool} {k : Kind} (hl : lookup cfg.table a = some (e, triggerRole v))
    (hf : fires cfg.policy e.writeOnly k = false) (cyc : C) (s : State C) :
    dispatch cfg a k cyc s = refreshStatus cfg e s := by
  rw [dispatch_of_plain_trigger hh hl, hf, if_neg Bool.false_ne_true]

/-- At a status address Dispatch refreshes the status byte (R141). -/
theorem dispatch_of_plain_status (hl : lookup cfg.table a = some (e, .status)) (k : Kind) (cyc : C) (s : State C) :
    dispatch cfg a k cyc s = refreshStatus cfg e s := by
  rw [dispatch_of_status cfg e a s k cyc hl, statusAccess, hh]

/-- A read of a status address returns the sentinel of the latch, which Dispatch has just stored there (R141, R150). -/
theorem busRead_of_plain_status (hl : lookup cfg.table a = some (e, .status)) (cyc : C) (s : State C) :
    busRead cfg a cyc s = (refreshStatus cfg e s).returnByte (sentinel cfg (s.latch e.name)) := by
  obtain ⟨ha, he⟩ := lookup_some hl
  have hst : e.statusAddress = some a := by simpa [answersAt] using ha
  have hown : coreOwned cfg.table a = true := List.any_eq_true.2 ⟨e, he, by simp [hh, hst]⟩
  have hheld : heldByte cfg a (refreshStatus cfg e s) = some (sentinel cfg (s.latch e.name)) := by
    rw [heldByte, if_pos hown, (refreshStatus_at hst s).1]
  rw [busRead, dispatch_of_plain_status hh hl, sample_of_held _ _ _ _ _ hheld]

end plain

/-- Settles O35: the first outcome of `Lookup`. -/
theorem unmappedDispatchOnlyRaisesItsEvent : Obligations.UnmappedDispatchOnlyRaisesItsEvent :=
  ⟨fun _ cfg a k cyc s hl => dispatch_of_none cfg a s k cyc hl, rfl⟩

/-- The entry of `TEXT` in the reference table (R173). -/
def textEntry : SwitchEntry := ⟨.text, some 0xC050, some 0xC051, some 0xC01A, false, none⟩

/-- The latches after an access to an off or on address of a switch without a handler (R135). -/
theorem dispatch_latch_of_plain_trigger (hh : e.handler = none) {v : Bool}
    (hl : lookup cfg.table a = some (e, triggerRole v)) (k : Kind) (cyc : C) (s : State C) :
    (dispatch cfg a k cyc s).latch e.name = (if fires cfg.policy e.writeOnly k then v else s.latch e.name) ∧
      LatchesKeptBut (· = e.name) s (dispatch cfg a k cyc s) := by
  cases hf : fires cfg.policy e.writeOnly k with
  | true =>
    rw [dispatch_of_plain_fires hh hl hf]
    exact ⟨by simp, fun n hn => (refreshStatus_latch ..).trans (setLatch_latchesKeptBut s e.name v n hn)⟩
  | false =>
    rw [dispatch_of_plain_closed hh hl hf]
    exact ⟨by simp, fun n _ => refreshStatus_latch ..⟩

/-- Settles O36: the set or clear stands behind the gate; the example is the row of `TEXT`, whose gate is open. -/
theorem defaultToggleFollowsTheGate : Obligations.DefaultToggleFollowsTheGate := by
  refine ⟨fun C cfg a k cyc s e role v hl hh hrole => ?_, ?_⟩
  · have hr : role = triggerRole v := by rcases hrole with ⟨rfl, rfl⟩ | ⟨rfl, rfl⟩ <;> rfl
    subst hr
    exact dispatch_latch_of_plain_trigger hh hl k cyc s
  · have hl : lookup refConfig.table 0xC050 = some (textEntry, triggerRole false) := rfl
    exact (dispatch_latch_of_plain_trigger rfl hl .rd 0 State.reset).1

/-- Settles O37: Dispatch is the refresh of the entry, whatever the kind. -/
theorem statusAccessOnlyRefreshesItsByte : Obligations.StatusAccessOnlyRefreshesItsByte := by
  refine ⟨fun C cfg a k k' cyc s e hl hh => ?_, ?_⟩
  · have hst : e.statusAddress = some a := by simpa [answersAt] using (lookup_some hl).1
    obtain ⟨hbyte, hkept⟩ := refreshStatus_at (cfg := cfg) hst s
    rw [dispatch_of_plain_status hh hl, dispatch_of_plain_status hh hl]
    exact ⟨hbyte, hkept, refreshStatus_eq cfg e s, rfl⟩
  · have hl : lookup refConfig.table 0xC01A = some (textEntry, .status) := rfl
    rw [dispatch_of_plain_status rfl hl]
    exact (refreshStatus_at (e := textEntry) rfl State.reset).1

/-- Settles O38: a latch that changes has one of its writers, and `Lookup` gives the address one entry. -/
theorem dispatchKeepsTheLatchesOfOtherSwitches : Obligations.DispatchKeepsTheLatchesOfOtherSwitches := by
  intro C cfg a k cyc s e role hl n hn
  by_contra hne
  obtain ⟨e', role', hl', hw⟩ := (dispatch_effect cfg a k cyc s).latch_writer hne
  obtain ⟨rfl, rfl⟩ := Prod.mk.inj (Option.some.inj (hl.symm.trans hl'))
  rcases hw with ⟨-, hname, -⟩ | hhandler
  · exact hn (.inl hname.symm)
  · exact hn (.inr hhandler)

/-- In an accepted table under GATE, a write to an address of a switch without a handler and then a read of its status
address returns the sentinel of the value written (R143(b)). -/
theorem busRead_status_of_busWrite_trigger (hw : wellFormedConfig cfg) (hp : cfg.policy = .gate) (he : e ∈ cfg.table)
    (hh : e.handler = none) {v : Bool} (ha : answersAt a (triggerRole v) e = true) {st : Address}
    (hst : e.statusAddress = some st) (data : Byte) (c c' : C) (s : State C) :
    (busRead cfg st c' (busWrite cfg a data c s)).returned = s.returned ++ [sentinel cfg v] := by
  have hf : fires cfg.policy e.writeOnly .wr = true := by rw [hp]; cases e.writeOnly <;> rfl
  have hls : lookup cfg.table st = some (e, .status) := lookup_of_answers hw he (by simp [answersAt, hst])
  rw [busRead_of_plain_status hh hls, busWrite, dispatch_of_plain_fires hh (lookup_of_answers hw he ha) hf]
  simp

/-- Settles O39: both writes fire under GATE, and construction has checked bit 7 of the sentinels. -/
theorem writtenSwitchReadsBackAtItsStatusAddress : Obligations.WrittenSwitchReadsBackAtItsStatusAddress := by
  intro C cfg e off on st data c c' s hw hp he hh hoff hon hst
  have readBack (a : Address) (v : Bool) (ha : answersAt a (triggerRole v) e = true) :
      (busRead cfg st c' (busWrite cfg a data c s)).returned = s.returned ++ [sentinel cfg v] :=
    busRead_status_of_busWrite_trigger hw hp he hh ha hst data c c' s
  have hset : statusFlag cfg.sentSet = true := parameterOk_of_accepted hw .sentSet
  have hclear : (!statusFlag cfg.sentClear) = true := parameterOk_of_accepted hw .sentClear
  exact ⟨readBack on true (by simp [triggerRole, answersAt, hon]),
    readBack off false (by simp [triggerRole, answersAt, hoff]), hset, by simpa using hclear⟩

end Sys2Proof.Machine
end

section
/-!
The frame of a bus access, over any table: a switch without a handler leaves all but the latches and the status region,
a call of an external handler leaves all but the handler's footprint.
-/
namespace Sys2Proof.Machine

variable {C : Type} {cfg : Config} {a : Address} {acc : BusAccess C} {s : State C}

/-- The sampling of a read calls no handler. -/
theorem busOp_noCall (cfg : Config) (a : Address) (acc : BusAccess C) (s : State C) :
    NoCall (dispatch cfg a acc.kind acc.cycle s) (busOp cfg a acc s) := by
  cases acc with
  | rd cyc => exact sample_noCall ..
  | wr data cyc => exact ⟨rfl, rfl, rfl⟩

/-- A read returns one byte and a write none (R150, R151). -/
theorem busOp_readReturns (cfg : Config) (a : Address) (acc : BusAccess C) (s : State C) :
    ReadReturns acc (fun _ => True) s (busOp cfg a acc s) := by
  obtain ⟨_, _, -, hr⟩ := busOp_shape cfg a s acc
  exact hr

/-- All but the latches is kept. -/
structure KeptButLatches (s u : State C) : Prop where
  status : u.status = s.status
  banked : u.banked = s.banked
  log    : u.log = s.log
  noCall : NoCall s u

theorem KeptButLatches.refl (s : State C) : KeptButLatches s s := ⟨rfl, rfl, rfl, rfl, rfl, rfl⟩

theorem setLatch_keptButLatches (s : State C) (n : SwitchName) (v : Bool) : KeptButLatches s (s.setLatch n v) :=
  ⟨rfl, rfl, rfl, rfl, rfl, rfl⟩

/-- The access gave the latches of `u`, with the entry's status byte refreshed from them, and touched nothing else. -/
structure RefreshedFrom (cfg : Config) (e : SwitchEntry) (acc : BusAccess C) (s u t : State C) : Prop where
  latches : t.latches = u.latches
  byte    : ∀ st, e.statusAddress = some st → t.status.read? st.toNat = some (sentinel cfg (u.latch e.name)) ∧
    StatusKeptBut (· = st.toNat) s t
  noByte  : e.statusAddress = none → t.status = s.status
  banked  : t.banked = s.banked
  log     : t.log = s.log
  returns : ReadReturns acc (fun _ => True) s t
  noCall  : NoCall s t
  video   : VideoKept s t

/-- Where Dispatch is the refresh of an entry after at most a latch was written, so is the bus access, but for the byte
that a read returns (R135, R138, R141). -/
theorem busOp_refreshedFrom {e : SwitchEntry} {u : State C}
    (hd : dispatch cfg a acc.kind acc.cycle s = refreshStatus cfg e u) (hu : KeptButLatches s u) :
    RefreshedFrom cfg e acc s u (busOp cfg a acc s) := by
  have hcall : NoCall (refreshStatus cfg e u) (busOp cfg a acc s) := hd ▸ busOp_noCall cfg a acc s
  refine ⟨?_, fun st hst => ?_, fun hst => ?_, ?_, ?_, busOp_readReturns ..,
    (hu.noCall.trans (refreshStatus_noCall ..)).trans hcall, busOp_videoKept ..⟩
  · rw [busOp_latches, hd, refreshStatus_latches]
  · obtain ⟨hbyte, hkept⟩ := refreshStatus_at (cfg := cfg) hst u
    rw [StatusKeptBut, busOp_status, hd]
    exact ⟨hbyte, fun k hk => hu.status ▸ hkept k hk⟩
  · rw [busOp_status, hd, refreshStatus_of_no_address hst, hu.status]
  · rw [busOp_banked, hd, refreshStatus_banked, hu.banked]
  · rw [busOp_log, hd, refreshStatus_log, hu.log]

/-- A bus access through an open gate refreshes from the latches with that of its switch set or cleared. -/
theorem busOp_refreshedFrom_setLatch {e : SwitchEntry} {v : Bool} (hh : e.handler = none)
    (hl : lookup cfg.table a = some (e, triggerRole v)) (hf : fires cfg.policy e.writeOnly acc.kind = true) :
    RefreshedFrom cfg e acc s (s.setLatch e.name v) (busOp cfg a acc s) :=
  busOp_refreshedFrom (dispatch_of_plain_fires hh hl hf ..) (setLatch_keptButLatches ..)

/-- Where a latch was set or cleared, it has that value, and no other latch has another one. -/
theorem RefreshedFrom.latch_of_setLatch {e : SwitchEntry} {v : Bool} {t : State C}
    (ht : RefreshedFrom cfg e acc s (s.setLatch e.name v) t) :
    t.latch e.name = v ∧ LatchesKeptBut (· = e.name) s t := by
  have hlatch (n : SwitchName) : t.latch n = (s.setLatch e.name v).latch n := by rw [State.latch, ht.latches]; rfl
  exact ⟨by simp [hlatch], fun n hn => (hlatch n).trans (setLatch_latchesKeptBut s e.name v n hn)⟩

/-- The access called an external handler once and kept to its footprint (R243, R250). -/
structure CalledOnce (cfg : Config) (h : HandlerId) (a : Address) (acc : BusAccess C) (s t : State C) : Prop where
  invoked     : t.invoked = s.invoked ++ [⟨h, a, acc.cycle⟩]
  handsOff    : HandsOff h acc.cycle s t
  peripherals : ∀ h', h' ≠ h → keyedGet 0 t.peripherals h' = keyedGet 0 s.peripherals h'
  latches     : LatchesKeptBut (fun n => ∃ e ∈ ownEntries cfg.table h, e.name = n) s t
  status      : t.status = s.status
  banked      : t.banked = s.banked
  log         : t.log = s.log
  returns     : ReadReturns acc (fun _ => True) s t
  video       : VideoKept s t

/-- The events that an external handler hands off are its own (R243, R247). -/
theorem invokeExternal_handsOff (cfg : Config) (h : HandlerId) (a : Address) (cyc : C) (s : State C) :
    HandsOff h cyc s (invokeExternal cfg h a cyc s) := by
  obtain ⟨-, -, -, -, -, -, hclick, hemit⟩ := invokeExternal_frame cfg a s h cyc
  cases h with
  | speaker => exact hclick rfl
  | bankedRam | kbdStrobe | joystick | platform => exact hemit (by simp)

/-- Where Dispatch is the call of an external handler, the access keeps to the footprint. -/
theorem busOp_calledOnce {h : HandlerId} (hb : h ≠ .bankedRam)
    (hd : dispatch cfg a acc.kind acc.cycle s = invoke cfg h a acc.cycle s) :
    CalledOnce cfg h a acc s (busOp cfg a acc s) := by
  rw [invoke_of_external cfg a s h _ hb] at hd
  obtain ⟨-, hinv, hbank, hst, hlog, -⟩ := invokeExternal_frame cfg a s h acc.cycle
  obtain ⟨hper', hinv', hout'⟩ := hd ▸ busOp_noCall cfg a acc s
  have hho := invokeExternal_handsOff cfg h a acc.cycle s
  refine ⟨hinv'.trans hinv, ?_, fun h' hne => ?_, fun n hn => ?_, ?_, ?_, ?_, busOp_readReturns ..,
    busOp_videoKept ..⟩
  · cases h <;> simpa only [HandsOff, hout'] using hho
  · rw [hper', invokeExternal_peripherals cfg a s h _ h' hne.symm]
  · rw [busOp_latch, hd]
    exact invokeExternal_latch cfg a s h _ n fun e he hen => hn ⟨e, he, hen⟩
  · rw [busOp_status, hd, hst]
  · rw [busOp_banked, hd, hbank]
  · rw [busOp_log, hd, hlog]

/-- An access to the status address of a switch with an external handler calls it once (R140). -/
theorem busOp_calledOnce_of_status {e : SwitchEntry} {h : HandlerId} (hb : h ≠ .bankedRam)
    (hl : lookup cfg.table a = some (e, .status)) (hh : e.handler = some h) :
    CalledOnce cfg h a acc s (busOp cfg a acc s) :=
  busOp_calledOnce hb (by rw [dispatch_of_status cfg e a s _ _ hl, statusAccess, hh])

/-- Under GATE, an access to an off or on address of a switch with an external handler and no status address calls it
once (R134). -/
theorem busOp_calledOnce_of_trigger {e : SwitchEntry} {h : HandlerId} {v : Bool} (hb : h ≠ .bankedRam)
    (hl : lookup cfg.table a = some (e, triggerRole v)) (hh : e.handler = some h) (hst : e.statusAddress = none)
    (hp : cfg.policy = .gate) : CalledOnce cfg h a acc s (busOp cfg a acc s) := by
  refine busOp_calledOnce hb ?_
  rw [dispatch_of_trigger hl, triggeredAccess, hh, hp]
  exact refreshStatus_of_no_address hst _

end Sys2Proof.Machine
end

section
/-!
The rows of the reference table: each bus row is an access to an address that the table resolves to the row's switch
(O6 to O12, O14); an unmapped access is one to an address that the table does not resolve (O15). Of all operations: each
completes (O27), and none sees the data byte of a write (O30).
-/
namespace Sys2Proof.Machine

open Sys2Proof.Statements

/-- The row that `build` makes is an access to the address `a`, which the table resolves to the entry and the role. -/
structure IsRowOf (build : BusAccess → Instr) (e : SwitchEntry) (role : Role) (a : Address) : Prop where
  encodes  : ∀ acc, encode (build acc) = .bus a acc
  resolved : lookup refConfig.table a = some (e, role)

/-- A bus row runs the bus operation at its address. -/
theorem IsRowOf.exec_eq {build : BusAccess → Instr} {e : SwitchEntry} {role : Role} {a : Address}
    (h : IsRowOf build e role a) (acc : BusAccess) (s : State) :
    exec (build acc) s = .next (busOp refConfig a acc s) := exec_of_encode_bus (h.encodes acc) s

/-- The rows of the write-only switches: no handler, a status byte (R161 to R168). -/
theorem writeOnlySwitchRows_entry : ∀ r ∈ writeOnlySwitchRows, ∃ e a, IsRowOf r.build e (triggerRole r.value) a ∧
    e.name = r.name ∧ e.statusAddress = some r.status ∧ e.writeOnly = true ∧ e.handler = none := by
  intro r hr
  fin_cases hr <;> exact ⟨_, _, ⟨fun _ => rfl, rfl⟩, rfl, rfl, rfl, rfl⟩

/-- The rows of the display switches: not write-only, no handler, a status byte (R173 to R176). -/
theorem displaySwitchRows_entry : ∀ r ∈ displaySwitchRows, ∃ e a, IsRowOf r.build e (triggerRole r.value) a ∧
    e.name = r.name ∧ e.statusAddress = some r.status ∧ e.writeOnly = false ∧ e.handler = none := by
  intro r hr
  fin_cases hr <;> exact ⟨_, _, ⟨fun _ => rfl, rfl⟩, rfl, rfl, rfl, rfl⟩

/-- The rows of the disk phases: not write-only, no handler, no status byte (R193 to R196). -/
theorem diskAddresses_entry : ∀ r ∈ diskAddresses, ∃ e a, IsRowOf r.1 e (triggerRole r.2.2) a ∧
    e.name = r.2.1 ∧ e.statusAddress = none ∧ e.writeOnly = false ∧ e.handler = none := by
  intro r hr
  fin_cases hr <;> exact ⟨_, _, ⟨fun _ => rfl, rfl⟩, rfl, rfl, rfl, rfl⟩

/-- The rows of the speaker: off and on address, no status byte (R172). -/
theorem speakerRows_entry : ∀ r ∈ speakerRows, ∃ e v, IsRowOf r.build e (triggerRole v) r.address ∧
    e.statusAddress = none ∧ e.handler = some .speaker := by
  intro r hr
  fin_cases hr
  · exact ⟨_, false, ⟨fun _ => rfl, rfl⟩, rfl, rfl⟩
  · exact ⟨_, true, ⟨fun _ => rfl, rfl⟩, rfl, rfl⟩

/-- The rows of the status addresses without a handler (R161 to R171, R173 to R176). -/
theorem statusAddressRows_entry : ∀ r ∈ statusAddressRows, ∃ e, IsRowOf r.build e .status r.address ∧
    e.name = r.name ∧ e.statusAddress = some r.address ∧ e.handler = none := by
  intro r hr
  fin_cases hr <;> exact ⟨_, ⟨fun _ => rfl, rfl⟩, rfl, rfl, rfl⟩

/-- The rows of the joystick handler are status addresses (R177 to R184). -/
theorem joystickAddresses_entry : ∀ r ∈ joystickAddresses, ∃ e, IsRowOf r.build e .status r.address ∧
    e.handler = some .joystick := by
  intro r hr
  fin_cases hr <;> exact ⟨_, ⟨fun _ => rfl, rfl⟩, rfl⟩

/-- Every entry of the keyboard's handler is the strobe (R169). -/
theorem kbdStrobe_entries : ∀ e ∈ ownEntries refConfig.table .kbdStrobe, e.name = .kbrdStrobe := by decide

/-- Every entry of the speaker's handler is the speaker (R172). -/
theorem speaker_entries : ∀ e ∈ ownEntries refConfig.table .speaker, e.name = .speaker := by decide

/-- Every entry of the joystick's handler has a row of its own (R177 to R184). -/
theorem joystick_entries : ∀ e ∈ ownEntries refConfig.table .joystick, ∃ r ∈ joystickAddresses, e.name = r.name := by
  decide

/-- A row whose gate is open sets or clears the latch of its switch and the status byte, and nothing else. -/
theorem IsRowOf.setsLatch {build : BusAccess → Instr} {e : SwitchEntry} {v : Bool} {a st : Address}
    (hrow : IsRowOf build e (triggerRole v) a) (hh : e.handler = none) (hst : e.statusAddress = some st)
    {acc : BusAccess} (hf : fires refConfig.policy e.writeOnly acc.kind = true) (s : State) : ∃ t,
    exec (build acc) s = .next t ∧
    t.latch e.name = v ∧ LatchesKeptBut (· = e.name) s t ∧
    t.status.read? st.toNat = some (sentinel refConfig v) ∧ StatusKeptBut (· = st.toNat) s t ∧
    t.banked = s.banked ∧ t.log = s.log ∧ ReadReturns acc (fun _ => True) s t ∧ NoCall s t ∧ VideoKept s t := by
  have ht := busOp_refreshedFrom_setLatch (s := s) hh hrow.resolved hf
  obtain ⟨hv, hlatches⟩ := ht.latch_of_setLatch
  obtain ⟨hbyte, hbytes⟩ := ht.byte st hst
  rw [State.setLatch_latch, if_pos rfl] at hbyte
  exact ⟨_, hrow.exec_eq acc s, hv, hlatches, hbyte, hbytes, ht.banked, ht.log, ht.returns, ht.noCall, ht.video⟩

/-- Settles O6: under GATE every write fires. -/
theorem writeToWriteOnlySwitchSetsItsLatch : Obligations.WriteToWriteOnlySwitchSetsItsLatch := by
  intro r hr data cyc s
  obtain ⟨e, a, hrow, hname, hst, hwo, hh⟩ := writeOnlySwitchRows_entry r hr
  have hf : fires refConfig.policy e.writeOnly (BusAccess.wr data cyc).kind = true := by rw [hwo]; rfl
  rw [← hname]
  exact hrow.setsLatch hh hst hf s

/-- Settles O7: a read does not fire, so that Dispatch only refreshes. -/
theorem readOfWriteOnlySwitchKeepsItsLatch : Obligations.ReadOfWriteOnlySwitchKeepsItsLatch := by
  intro r hr cyc s
  obtain ⟨e, a, hrow, hname, hst, hwo, hh⟩ := writeOnlySwitchRows_entry r hr
  have hf : fires refConfig.policy e.writeOnly .rd = false := by rw [hwo]; rfl
  have ht : RefreshedFrom refConfig e (.rd cyc) s s (busOp refConfig a (.rd cyc) s) :=
    busOp_refreshedFrom (dispatch_of_plain_closed hh hrow.resolved hf cyc s) (.refl s)
  obtain ⟨hbyte, hbytes⟩ := ht.byte r.status hst
  obtain ⟨b, -, hreturned⟩ := ht.returns
  rw [← hname]
  exact ⟨_, hrow.exec_eq _ s, ht.latches, hbyte, hbytes, ht.banked, ht.log, ⟨b, hreturned⟩, ht.noCall, ht.video⟩

/-- Settles O8: under GATE every access to a switch that is not write-only fires. -/
theorem accessToDisplaySwitchSetsItsLatch : Obligations.AccessToDisplaySwitchSetsItsLatch := by
  intro r hr acc s
  obtain ⟨e, a, hrow, hname, hst, hwo, hh⟩ := displaySwitchRows_entry r hr
  have hf : fires refConfig.policy e.writeOnly acc.kind = true := by rw [hwo]; rfl
  rw [← hname]
  exact hrow.setsLatch hh hst hf s

/-- Settles O14: every access fires, and there is no status byte to refresh. -/
theorem diskPhaseAddressSetsItsLatch : Obligations.DiskPhaseAddressSetsItsLatch := by
  intro r hr acc s
  obtain ⟨e, a, hrow, hname, hst, hwo, hh⟩ := diskAddresses_entry r hr
  have hf : fires refConfig.policy e.writeOnly acc.kind = true := by rw [hwo]; rfl
  have ht := busOp_refreshedFrom_setLatch (s := s) hh hrow.resolved hf
  obtain ⟨hv, hlatches⟩ := ht.latch_of_setLatch
  rw [← hname]
  exact ⟨_, hrow.exec_eq acc s, hv, hlatches, ht.noByte hst, ht.banked, ht.log, ht.returns, ht.noCall, ht.video⟩

/-- Settles O9: Dispatch refreshes, and a read returns what it stored. -/
theorem statusAddressShowsItsLatch : Obligations.StatusAddressShowsItsLatch := by
  intro r hr acc s
  obtain ⟨e, hrow, hname, hst, hh⟩ := statusAddressRows_entry r hr
  have ht : RefreshedFrom refConfig e acc s s (busOp refConfig r.address acc s) :=
    busOp_refreshedFrom (dispatch_of_plain_status hh hrow.resolved ..) (.refl s)
  obtain ⟨hbyte, hbytes⟩ := ht.byte r.address hst
  have hreturns : ReadReturns acc (· = sentinel refConfig (s.latch e.name)) s (busOp refConfig r.address acc s) := by
    cases acc with
    | wr data cyc => exact ht.returns
    | rd cyc =>
      refine ⟨_, rfl, ?_⟩
      rw [busOp, busRead_of_plain_status hh hrow.resolved, State.returnByte_returned, refreshStatus_returned]
  rw [← hname]
  exact ⟨_, hrow.exec_eq acc s, ht.latches, hbyte, hbytes, ht.banked, ht.log, hreturns, ht.noCall, ht.video⟩

/-- Settles O10: the strobe is the only entry of its handler. -/
theorem keyboardStrobeCallsItsHandler : Obligations.KeyboardStrobeCallsItsHandler := by
  intro acc s
  have hl : lookup refConfig.table 0xC010 =
      some (⟨.kbrdStrobe, none, none, some 0xC010, false, some .kbdStrobe⟩, .status) := rfl
  obtain ⟨hinv, hout, hper, hlatches, hst, hbank, hlog, hret, hvideo⟩ :=
    busOp_calledOnce_of_status (acc := acc) (s := s) (by decide) hl rfl
  have hkept := hlatches.mono fun n ⟨e, he, hn⟩ => hn.symm.trans (kbdStrobe_entries e he)
  exact ⟨_, rfl, hinv, hout, hper, hkept, hst, hbank, hlog, hret, hvideo⟩

/-- Settles O11: the entries of the handler are those of the rows. -/
theorem joystickAddressCallsItsHandler : Obligations.JoystickAddressCallsItsHandler := by
  intro r hr acc s
  obtain ⟨e, hrow, hh⟩ := joystickAddresses_entry r hr
  obtain ⟨hinv, hout, hper, hlatches, hst, hbank, hlog, hret, hvideo⟩ :=
    busOp_calledOnce_of_status (acc := acc) (s := s) (by decide) hrow.resolved hh
  have hkept : LatchesKeptBut (fun n => ∃ r' ∈ joystickAddresses, n = r'.name) s (busOp refConfig r.address acc s) :=
    hlatches.mono fun n ⟨e, he, hn⟩ => hn ▸ joystick_entries e he
  exact ⟨_, hrow.exec_eq acc s, hinv, hout, hper, hkept, hst, hbank, hlog, hret, hvideo⟩

/-- Settles O12: the speaker has no status byte to refresh after the call. -/
theorem speakerAddressClicksOnce : Obligations.SpeakerAddressClicksOnce := by
  intro r hr acc s
  obtain ⟨e, v, hrow, hstatus, hh⟩ := speakerRows_entry r hr
  obtain ⟨hinv, hout, hper, hlatches, hst, hbank, hlog, hret, hvideo⟩ :=
    busOp_calledOnce_of_trigger (acc := acc) (s := s) (by decide) hrow.resolved hh hstatus rfl
  have hkept := hlatches.mono fun n ⟨e, he, hn⟩ => hn.symm.trans (speaker_entries e he)
  exact ⟨_, hrow.exec_eq acc s, hinv, hout, hper, hkept, hst, hbank, hlog, hret, hvideo⟩

/-- Settles O15: the row is the bus operation at its address, at which Dispatch raises its event. -/
theorem unmappedAccessOnlyLogs : Obligations.UnmappedAccessOnlyLogs := by
  intro a acc s hl
  have hd := dispatch_of_none refConfig a s acc.kind acc.cycle hl
  have hcall : NoCall s (dispatch refConfig a acc.kind acc.cycle s) := hd ▸ ⟨rfl, rfl, rfl⟩
  refine ⟨busOp refConfig a acc s, rfl, ?_, ?_, ?_, ?_, busOp_readReturns .., hcall.trans (busOp_noCall ..),
    busOp_videoKept ..⟩
  · rw [busOp_log, hd]; rfl
  · rw [busOp_latches, hd]; rfl
  · rw [busOp_status, hd]; rfl
  · rw [busOp_banked, hd]; rfl

/-- Settles O27: every operation is what its line does. -/
theorem everyOperationCompletes : Obligations.EveryOperationCompletes :=
  fun i s => ⟨_, exec_eq_runLine_encode i s⟩

/-- Settles O30: a bus write is Dispatch at its address, which is not handed the data. -/
theorem writeDataIsDiscarded : Obligations.WriteDataIsDiscarded := by
  intro a data data' cyc s
  have hwrite (d : Byte) : exec (decode (.bus a (.wr d cyc))) s = .next (dispatch refConfig a .wr cyc s) :=
    exec_decode (.bus a (.wr d cyc)) s
  rw [hwrite, hwrite]

end Sys2Proof.Machine
end

section
/-!
The BankedRAM decode: what it makes of the fragment of its address, at the sixteen addresses of its selectors (O13), and
that neither the rest of the address (O44) nor an earlier decode (O45) is seen after it.
-/
namespace Sys2Proof.Machine

open Sys2Proof.Statements

/-- The fragment of an address is its value modulo 16 (R93). -/
theorem bankFragment_toNat (a : Address) : (bankFragment a).toNat = a.toNat % 16 := by
  simp [bankFragment]

/-- Addresses with the same low four bits have the same fragment. -/
theorem bankFragment_congr {a a' : Address} (h : a.toNat % 16 = a'.toNat % 16) : bankFragment a = bankFragment a' :=
  BitVec.eq_of_toNat_eq (by rw [bankFragment_toNat, bankFragment_toNat, h])

/-- The vector of a fragment is one-hot at the fragment's index (R224). -/
theorem bankVector_get (frag : BitVec 4) (j : Fin 8) : (bankVector frag)[j] = decide (j.val = bankIndex frag) := by
  simp [bankVector]

section purity

variable {C : Type} {cfg : Config} (a : Address) (s : State C)

/-- Where the table has the entry, the latch of bank 2 comes from the fragment (R226). -/
theorem bankedRam_latch_bankTwo (h : (entryNamed cfg.table .bsrBank2).isSome) :
    (bankedRam cfg a s).latch .bsrBank2 = bankTwoSelected (bankFragment a) := by
  simp [bankedRam, writeCoarse_latch, h]

/-- Where the table has the entry, the latch of the RAM read comes from the fragment (R226). -/
theorem bankedRam_latch_readRam (h : (entryNamed cfg.table .bsrReadRam).isSome) :
    (bankedRam cfg a s).latch .bsrReadRam = readRamActive (bankFragment a) := by
  simp [bankedRam, writeCoarse_latch, h]

end purity

/-- Settles O44: what the decode writes comes from the fragment, which is the low four bits. -/
theorem bankedRamReadsOnlyTheFragment : Obligations.BankedRamReadsOnlyTheFragment := by
  intro C cfg a a' s s' ha
  have hfrag : bankFragment a = bankFragment a' := bankFragment_congr ha
  refine ⟨by rw [bankedRam_banked, bankedRam_banked, hfrag], fun h2 hr => ⟨?_, ?_⟩⟩
  · rw [bankedRam_latch_bankTwo a s h2, bankedRam_latch_bankTwo a' s' h2, hfrag]
  · rw [bankedRam_latch_readRam a s hr, bankedRam_latch_readRam a' s' hr, hfrag]

/-- Everything that the BankedRAM decode writes over the reference table (R224, R226, R228). -/
theorem bankedRam_eq {C : Type} (a : Address) (s : State C) : bankedRam refConfig a s =
    { s with
      latches := keyedSet (keyedSet s.latches .bsrBank2 (bankTwoSelected (bankFragment a))) .bsrReadRam
        (readRamActive (bankFragment a))
      banked := bankVector (bankFragment a)
      status := (s.status.write 0xC011 (sentinel refConfig (bankTwoSelected (bankFragment a)))).write 0xC012
        (sentinel refConfig (readRamActive (bankFragment a))) } := by
  have h2 : entryNamed refConfig.table .bsrBank2 = some ⟨.bsrBank2, none, none, some 0xC011, false, none⟩ := rfl
  have hr : entryNamed refConfig.table .bsrReadRam = some ⟨.bsrReadRam, none, none, some 0xC012, false, none⟩ := rfl
  simp only [bankedRam, writeCoarse, h2, hr, refreshStatus, State.setLatch_latch, if_true]
  rfl

/-- Of two pairs of writes to the same two keys the later pair stands. -/
theorem keyedSet_pair_same {α β : Type} [DecidableEq α] (l : List (α × β)) {k k' : α} (hne : k ≠ k') (v v' w w' : β) :
    keyedSet (keyedSet (keyedSet (keyedSet l k v) k' v') k w) k' w' = keyedSet (keyedSet l k w) k' w' := by
  rw [keyedSet_comm _ k k' w v' hne (mem_keyedSet l k v), keyedSet_keyedSet_same, keyedSet_keyedSet_same]

/-- In the canonical form, of two pairs of writes to the same two addresses the later pair stands. -/
theorem Memory.write_pair_same {m : Memory} (hm : Memory.rising m = true) (k k' : Nat) (v v' w w' : Byte) :
    (((m.write k v).write k' v').write k w).write k' w' = (m.write k w).write k' w' := by
  refine ext_of_rising _ _ ?_ ?_ fun j => ?_
  · exact write_rising _ _ _ (write_rising _ _ _ (write_rising _ _ _ (write_rising _ _ _ hm)))
  · exact write_rising _ _ _ (write_rising _ _ _ hm)
  · simp only [read?_write]
    split_ifs <;> rfl

/-- Settles O45: the second decode writes every part that the first one wrote. -/
theorem lastBankedRamAccessWins : Obligations.LastBankedRamAccessWins := by
  intro a b s hwf
  have hrising : Memory.rising s.status = true := (Bool.and_eq_true_iff.1 hwf).1
  simp only [bankedRam_eq]
  rw [keyedSet_pair_same _ (by decide), Memory.write_pair_same hrising]

/-- Under GATE, an access to any address of a switch with a handler and no status address is the handler's call: there is
no gate before it (R134, R140) and no byte to refresh after it (R138). -/
theorem dispatch_of_statusless_handler {C : Type} {cfg : Config} {a : Address} {e : SwitchEntry} {role : Role}
    {h : HandlerId} (hl : lookup cfg.table a = some (e, role)) (hh : e.handler = some h) (hst : e.statusAddress = none)
    (hp : cfg.policy = .gate) (k : Kind) (cyc : C) (s : State C) : dispatch cfg a k cyc s = invoke cfg h a cyc s := by
  have triggered (v : Bool) : triggeredAccess cfg e v a k cyc s = invoke cfg h a cyc s := by
    rw [triggeredAccess, hh, hp]
    exact refreshStatus_of_no_address hst _
  cases role with
  | off => rw [dispatch_of_off cfg e a s k cyc hl, triggered]
  | on => rw [dispatch_of_on cfg e a s k cyc hl, triggered]
  | status => rw [dispatch_of_status cfg e a s k cyc hl, statusAccess, hh]

/-- The rows of the selectors: the block's own handler, no status byte, and the reference table's row of the fragment of
their address (R185 to R192, R228). -/
theorem bankAddresses_entry : ∀ r ∈ bankAddresses, ∃ e role a, IsRowOf r.build e role a ∧
    e.handler = some .bankedRam ∧ e.statusAddress = none ∧ bankIndex (bankFragment a) = r.index ∧
    bankTwoSelected (bankFragment a) = r.bankTwo ∧ readRamActive (bankFragment a) = r.readRam := by
  intro r hr
  fin_cases hr <;> exact ⟨_, _, _, ⟨fun _ => rfl, rfl⟩, rfl, rfl, rfl, rfl, rfl⟩

/-- Settles O13: Dispatch is the decode of the row's fragment. -/
theorem bankedRamAddressDecodesItsFragment : Obligations.BankedRamAddressDecodesItsFragment := by
  intro r hr acc s
  obtain ⟨e, role, a, hrow, hh, hst, hindex, hbank, hread⟩ := bankAddresses_entry r hr
  have hd : dispatch refConfig a acc.kind acc.cycle s = bankedRam refConfig a s :=
    dispatch_of_statusless_handler hrow.resolved hh hst rfl acc.kind acc.cycle s
  have hcall : NoCall (bankedRam refConfig a s) (busOp refConfig a acc s) := hd ▸ busOp_noCall refConfig a acc s
  have hlatch (n : SwitchName) : (busOp refConfig a acc s).latch n = (bankedRam refConfig a s).latch n := by
    rw [busOp_latch, hd]
  have hbyte (k : Nat) : (busOp refConfig a acc s).status.read? k = (bankedRam refConfig a s).status.read? k := by
    rw [busOp_status, hd]
  obtain ⟨hcoarse2, hcoarseR⟩ := bankedRam_coarse a s
  refine ⟨_, hrow.exec_eq acc s, fun j => ?_, ?_, ?_, fun n hn => ?_, ?_, ?_, fun k hk => ?_, ?_,
    busOp_readReturns .., (bankedRam_noCall ..).trans hcall, busOp_videoKept ..⟩
  · rw [busOp_banked, hd, bankedRam_banked, bankVector_get, hindex]
  · rw [hlatch, hcoarse2, hbank]
  · rw [hlatch, hcoarseR, hread]
  · obtain ⟨hn2, hnr⟩ := not_or.1 hn
    rw [hlatch, bankedRam_latch_of_ne _ _ _ n hn2 hnr]
  · rw [hbyte, bankedRam_read?, if_neg (by decide), if_pos rfl, hbank]
  · rw [hbyte, bankedRam_read?, if_pos rfl, hread]
  · obtain ⟨hk2, hkr⟩ := not_or.1 hk
    rw [hbyte, bankedRam_read?, if_neg hkr, if_neg hk2]
  · rw [busOp_log, hd, bankedRam_log]

end Sys2Proof.Machine
end

section
/-!
The side effects of a bus access, as far as the block answers for them: the call of an external handler keeps to its
footprint (O40), and the cycle count that the handler is handed reaches nothing else but the event of an unmapped access
(O31).
-/
namespace Sys2Proof.Machine

variable {C : Type}

/-- Settles O40: the call of a handler other than the block's own is the oracle's, which keeps to the footprint. -/
theorem externalHandlerKeepsToItsFootprint : Obligations.ExternalHandlerKeepsToItsFootprint := by
  intro C cfg h a cyc s hb
  rw [invoke_of_external cfg a s h cyc hb]
  obtain ⟨hvideo, hinv, hbank, hst, hlog, hret, -⟩ := invokeExternal_frame cfg a s h cyc
  refine ⟨hinv, invokeExternal_handsOff cfg h a cyc s, fun n hn => ?_, fun h' hne => ?_, hst, hbank, hlog, hret, hvideo⟩
  · refine invokeExternal_latch cfg a s h cyc n fun e he hen => hn ?_
    obtain ⟨hmem, hh⟩ := List.mem_filter.1 he
    exact ⟨e, hmem, by simpa using hh, hen⟩
  · exact invokeExternal_peripherals cfg a s h cyc h' hne.symm

/-- The latches that an external handler may write are its own entries' (R243(b)). -/
theorem handlerMayWrite_iff_of_external {cfg : Config} {h : HandlerId} {n : SwitchName} (hb : h ≠ .bankedRam) :
    HandlerMayWrite cfg h n ↔ ∃ e ∈ ownEntries cfg.table h, e.name = n := by
  cases h with
  | bankedRam => exact absurd rfl hb
  | kbdStrobe | speaker | joystick | platform => exact Iff.rfl

theorem VideoKept.symm {s t : State C} (h : VideoKept s t) : VideoKept t s :=
  ⟨h.flashCount.symm, h.flashPhase.symm, h.pending.symm, h.outputs.symm⟩

theorem NoCall.symm {s t : State C} (h : NoCall s t) : NoCall t s :=
  ⟨h.peripherals.symm, h.invoked.symm, h.outbound.symm⟩

/-- How many bytes an access returns is a matter of its kind (R150, R151). -/
theorem ReadReturns.length_returned {acc : BusAccess C} {p : Byte → Prop} {s t : State C} (h : ReadReturns acc p s t) :
    t.returned.length = s.returned.length + if acc.kind = .rd then 1 else 0 := by
  cases acc with
  | rd cyc =>
    obtain ⟨b, -, hb⟩ := h
    simp [hb, BusAccess.kind]
  | wr data cyc =>
    have hr : t.returned = s.returned := h
    simp [hr, BusAccess.kind]

section dispatch

variable {cfg : Config} {a : Address}

/-- The block's own answer to a mapped access, that of a plain switch or the BankedRAM decode, is not handed the cycle
count (R135, R141, R241). -/
theorem dispatch_cycle_irrelevant {e : SwitchEntry} {role : Role} (hl : lookup cfg.table a = some (e, role))
    (hown : ∀ h, e.handler = some h → h = .bankedRam) (k : Kind) (c c' : C) (s : State C) :
    dispatch cfg a k c s = dispatch cfg a k c' s := by
  have hinvoke (h : HandlerId) (hh : e.handler = some h) : invoke cfg h a c s = invoke cfg h a c' s := by
    rw [hown h hh]
    rfl
  have triggered (v : Bool) : triggeredAccess cfg e v a k c s = triggeredAccess cfg e v a k c' s := by
    unfold triggeredAccess
    split
    · rw [hinvoke _ ‹_›]
    · rfl
  cases role with
  | off => rw [dispatch_of_off cfg e a s k c hl, dispatch_of_off cfg e a s k c' hl, triggered]
  | on => rw [dispatch_of_on cfg e a s k c hl, dispatch_of_on cfg e a s k c' hl, triggered]
  | status =>
    rw [dispatch_of_status cfg e a s k c hl, dispatch_of_status cfg e a s k c' hl]
    unfold statusAccess
    split
    · exact hinvoke _ ‹_›
    · rfl

/-- Where no external handler is called, the cycle count of an access shows in the log alone (R132, R385). -/
theorem dispatch_eq_but_log (hx : ¬ CallsExternal cfg.table a) (k : Kind) (c c' : C) (s : State C) :
    ∃ l, dispatch cfg a k c s = { dispatch cfg a k c' s with log := l } := by
  cases hl : lookup cfg.table a with
  | none =>
    rw [dispatch_of_none cfg a s k c hl, dispatch_of_none cfg a s k c' hl]
    exact ⟨_, rfl⟩
  | some hit =>
    obtain ⟨e, role⟩ := hit
    have hown (h : HandlerId) (hh : e.handler = some h) : h = .bankedRam := by
      by_contra hb
      exact hx ⟨e, role, h, hl, hh, hb⟩
    exact ⟨_, dispatch_cycle_irrelevant hl hown k c c' s⟩

/-- In the reference table an access to an address of a switch with an external handler is the handler's call: no gate is
closed before it, and no byte is refreshed after it (R134, R140). -/
theorem exists_dispatch_eq_invoke (hx : CallsExternal refConfig.table a) : ∃ h, h ≠ .bankedRam ∧
    ∀ (k : Kind) (cyc : C) (s : State C), dispatch refConfig a k cyc s = invoke refConfig h a cyc s := by
  obtain ⟨e, role, h, hl, hh, hb⟩ := hx
  refine ⟨h, hb, fun k cyc s => ?_⟩
  by_cases hr : role = .status
  · subst hr
    rw [dispatch_of_status refConfig e a s k cyc hl, statusAccess, hh]
  · have hst : e.handler = none ∨ e.statusAddress = none :=
      triggered_entry_statusless e (lookup_some hl).2 (hasTrigger_of_lookup hl hr)
    exact dispatch_of_statusless_handler hl hh (hst.resolve_left (by simp [hh])) rfl k cyc s

/-- A core-owned address is the status address of a switch without a handler, and an accepted table resolves it to that
(R33). -/
theorem lookup_of_coreOwned (hw : wellFormedConfig cfg) (ho : coreOwned cfg.table a = true) :
    ∃ e, lookup cfg.table a = some (e, .status) ∧ e.handler = none := by
  obtain ⟨e, he, hp⟩ := List.any_eq_true.1 ho
  obtain ⟨hh, hst⟩ := Bool.and_eq_true_iff.1 hp
  exact ⟨e, lookup_of_answers hw he hst, Option.isNone_iff_eq_none.1 hh⟩

end dispatch

section twoRuns

variable {acc acc' : BusAccess C}

/-- The call of an external handler leaves a latch that no external handler may write (R243). -/
theorem CalledOnce.latch_of_not_mayWrite {cfg : Config} {h : HandlerId} {a : Address} {s t : State C} {n : SwitchName}
    (ht : CalledOnce cfg h a acc s t) (hb : h ≠ .bankedRam) (hn : ∀ h, h ≠ .bankedRam → ¬ HandlerMayWrite cfg h n) :
    t.latch n = s.latch n :=
  ht.latches n fun hown => hn h hb ((handlerMayWrite_iff_of_external hb).2 hown)

variable (hk : acc.kind = acc'.kind) (cfg : Config) (a : Address) (s : State C)

include hk

/-- Two accesses of one kind to a core-owned address return the same (R33, R150). -/
theorem busOp_returned_of_coreOwned (hw : wellFormedConfig cfg) (ho : coreOwned cfg.table a = true) :
    (busOp cfg a acc s).returned = (busOp cfg a acc' s).returned := by
  obtain ⟨e, hl, hh⟩ := lookup_of_coreOwned hw ho
  match acc, acc', hk with
  | .rd _, .rd _, _ => rw [busOp, busOp, busRead_of_plain_status hh hl, busRead_of_plain_status hh hl]
  | .wr _ _, .wr _ _, _ => rw [busOp, busOp, busWrite, busWrite, dispatch_returned, dispatch_returned]

/-- Where no external handler is called, two accesses of one kind agree on the latches, `B`, the status region and the
handler side (R241, R385). -/
theorem busOp_agrees_of_not_callsExternal (hx : ¬ CallsExternal cfg.table a) :
    (busOp cfg a acc s).latches = (busOp cfg a acc' s).latches ∧
      (busOp cfg a acc s).banked = (busOp cfg a acc' s).banked ∧
      (busOp cfg a acc s).status = (busOp cfg a acc' s).status ∧ NoCall (busOp cfg a acc' s) (busOp cfg a acc s) := by
  obtain ⟨l, hd⟩ := dispatch_eq_but_log hx acc.kind acc.cycle acc'.cycle s
  refine ⟨?_, ?_, ?_, ?_⟩
  · rw [busOp_latches, busOp_latches, ← hk, hd]
  · rw [busOp_banked, busOp_banked, ← hk, hd]
  · rw [busOp_status, busOp_status, ← hk, hd]
  · have hcall : NoCall (dispatch cfg a acc'.kind acc'.cycle s) (dispatch cfg a acc.kind acc.cycle s) := by
      rw [← hk, hd]
      exact ⟨rfl, rfl, rfl⟩
    exact ((busOp_noCall cfg a acc' s).symm.trans hcall).trans (busOp_noCall cfg a acc s)

/-- Two accesses of one kind raise the same event, but for its cycle count (R132, R385). -/
theorem busOp_events :
    (busOp cfg a acc s).log.map Event.withoutCycle = (busOp cfg a acc' s).log.map Event.withoutCycle := by
  rw [busOp_log, busOp_log, dispatch_log, dispatch_log, hk]
  split <;> simp [Event.withoutCycle]

/-- Two accesses of one kind return the same number of bytes. -/
theorem busOp_returned_length : (busOp cfg a acc s).returned.length = (busOp cfg a acc' s).returned.length := by
  rw [(busOp_readReturns cfg a acc s).length_returned, (busOp_readReturns cfg a acc' s).length_returned, hk]

/-- Two accesses of one kind agree on what the block owns: an external handler, where one is called, leaves it as it was,
and elsewhere the block's own answer is the same (R243, R385). -/
theorem busOp_coreAgrees : CoreAgrees refConfig (busOp refConfig a acc s) (busOp refConfig a acc' s) := by
  have hvideo : VideoKept (busOp refConfig a acc' s) (busOp refConfig a acc s) :=
    (busOp_videoKept refConfig a s acc').symm.trans (busOp_videoKept refConfig a s acc)
  have hevents := busOp_events hk refConfig a s
  have hlength := busOp_returned_length hk refConfig a s
  by_cases hx : CallsExternal refConfig.table a
  · obtain ⟨h, hb, hd⟩ := exists_dispatch_eq_invoke (C := C) hx
    have called (acc : BusAccess C) : CalledOnce refConfig h a acc s (busOp refConfig a acc s) :=
      busOp_calledOnce hb (hd acc.kind acc.cycle s)
    have ht := called acc
    have ht' := called acc'
    refine ⟨fun n hn => ?_, ht.banked.trans ht'.banked.symm, ht.status.trans ht'.status.symm, hvideo, hevents, hlength⟩
    rw [ht.latch_of_not_mayWrite hb hn, ht'.latch_of_not_mayWrite hb hn]
  · obtain ⟨hlatches, hbank, hst, -⟩ := busOp_agrees_of_not_callsExternal hk refConfig a s hx
    exact ⟨fun n _ => by rw [State.latch, hlatches]; rfl, hbank, hst, hvideo, hevents, hlength⟩

end twoRuns

/-- Settles O31: the two runs are the bus operation at the address with two accesses of one kind. -/
theorem cycleCountIsOnlyPassedOn : Obligations.CycleCountIsOnlyPassedOn := by
  intro a data c c' s p hp
  have hk : p.1.kind = p.2.kind := by
    rcases List.mem_pair.1 hp with rfl | rfl <;> rfl
  refine ⟨_, _, exec_decode (.bus a p.1) s, exec_decode (.bus a p.2) s, busOp_coreAgrees hk a s,
    busOp_returned_of_coreOwned hk refConfig a s refConfig_wellFormed, fun hx => ?_⟩
  obtain ⟨hlatches, -, -, hcall⟩ := busOp_agrees_of_not_callsExternal hk refConfig a s hx
  exact ⟨hlatches, hcall⟩

end Sys2Proof.Machine
end

section
/-!
What the decoders share: the classification by length (O46), a decode request over its pipeline by the three branches of
R262 (O20, O21, O47), and the display plan as the caller of the graphics decoders (O59).
-/
namespace Sys2Proof.Machine

variable {C : Type}

/-- A decoder classifies exactly the lengths that it admits (R100, R261). -/
theorem classify_eq_none_iff (d : DecoderKind) (n : Nat) : classify d n = none ↔ n ∉ d.lengths := by
  cases d with
  | text | lores | hires => simp [classify, DecoderKind.lengths, ite_eq_iff]

/-- Settles O46: the ten rows by evaluation. -/
theorem classifyAdmitsExactlyTheTable : Obligations.ClassifyAdmitsExactlyTheTable :=
  ⟨rfl, rfl, rfl, rfl, rfl, rfl, rfl, rfl, rfl, rfl, fun d n => (classify_eq_none_iff d n).2⟩

section request

variable (d : DecoderKind) (render : Shape → DecodeOutput) (s : State C)

theorem decodeRequest_nil : decodeRequest d [] render s = s.emit .empty := rfl

/-- A positive length that the decoder does not admit is raised and gives `Empty` (R262, R374). -/
theorem decodeRequest_of_not_admitted {snap : List Byte} (h0 : snap ≠ []) (hn : snap.length ∉ d.lengths) :
    decodeRequest d snap render s = (s.raise (.badLength d snap.length)).emit .empty := by
  rw [decodeRequest, if_neg (mt List.length_eq_zero_iff.1 h0), (classify_eq_none_iff d _).2 hn]

end request

/-- What the `flash` operand of a call hands its decoder in a given flash phase (R290, R298). -/
def flashInPhase (phase : Bool) : FlashArg → Bool
  | .value b => b
  | .flashPhase => phase

/-- The pipeline of a call, run in a given flash phase on a snapshot of a known shape (R290, R310, R325). -/
def renderCall (cfg : Config) (snap : List Byte) (phase : Bool) : DecoderCall → Shape → DecodeOutput
  | .text alt flash mixed color, shape => .cells (textBuffer cfg snap alt (flashInPhase phase flash) mixed color shape)
  | .lores color, shape => .pixels (palettize cfg (loresPalette cfg color) (loresIndex cfg snap shape))
  | .hires color, shape => hiresOutput cfg color snap shape

/-- A decode call is the request to its decoder over its pipeline; of the state the pipeline is handed the flash phase
only (R260). -/
theorem decodeCall_eq_decodeRequest (cfg : Config) (call : DecoderCall) (snap : List Byte) (s : State C) :
    decodeCall cfg call snap s = decodeRequest call.decoder snap (renderCall cfg snap s.flashPhase call) s := by
  cases call with
  | text alt flash mixed color => cases flash <;> rfl
  | lores color | hires color => rfl

/-- Only a text call that is handed the flash phase renders by it (R260, R290). -/
theorem renderCall_phase_irrelevant (cfg : Config) {call : DecoderCall} (snap : List Byte)
    (h : ∀ alt mixed color, call ≠ .text alt .flashPhase mixed color) (phase phase' : Bool) :
    renderCall cfg snap phase call = renderCall cfg snap phase' call := by
  cases call with
  | text alt flash mixed color =>
    cases flash with
    | value b => rfl
    | flashPhase => exact absurd rfl (h alt mixed color)
  | lores color | hires color => rfl

/-- Settles O20: a zero length is the first branch of the request. -/
theorem emptySnapshotGivesEmpty : Obligations.EmptySnapshotGivesEmpty := by
  intro call s
  rw [exec_eq_runLine_encode, encode, runLine, decodeCall_eq_decodeRequest, decodeRequest_nil]
  rfl

/-- Settles O21: a length that is not admitted is classified as none. -/
theorem unknownLengthIsLoggedAndEmpty : Obligations.UnknownLengthIsLoggedAndEmpty := by
  intro call snap s h0 hn
  rw [exec_eq_runLine_encode, encode, runLine, decodeCall_eq_decodeRequest, decodeRequest_of_not_admitted _ _ _ h0 hn]
  rfl

/-- Settles O47: the branch of the request depends on the snapshot's length, and the pipeline sees the flash phase only. -/
theorem decoderOutputDependsOnItsOperandsOnly : Obligations.DecoderOutputDependsOnItsOperandsOnly := by
  intro C cfg call snap
  by_cases h0 : snap = []
  · subst h0
    refine ⟨fun _ => .empty, [], fun s => ?_, fun _ => rfl, fun _ => ⟨fun _ => rfl, rfl⟩⟩
    rw [decodeCall_eq_decodeRequest, decodeRequest_nil, List.append_nil]
    rfl
  cases hc : classify call.decoder snap.length with
  | none =>
    refine ⟨fun _ => .empty, [.badLength call.decoder snap.length], fun s => ?_, fun _ => rfl, fun h => absurd h h0⟩
    rw [decodeCall_eq_decodeRequest, decodeRequest_of_not_admitted _ _ _ h0 ((classify_eq_none_iff _ _).1 hc)]
    rfl
  | some shape =>
    refine ⟨fun phase => renderCall cfg snap phase call shape, [], fun s => ?_, fun hcall => ?_, fun h => absurd h h0⟩
    · rw [decodeCall_eq_decodeRequest, decodeRequest_of_classify _ _ _ _ _ (mt List.length_eq_zero_iff.1 h0) hc,
        List.append_nil]
      rfl
    · exact congrFun (renderCall_phase_irrelevant cfg snap hcall true false) shape

/-- The plan with `TEXT` off (R280): `HIRES` chooses the decoder, and `MIXED` the short picture with the four text rows
under it. -/
def graphicsPlan (hires mixed : Bool) : Plan where
  graphics := some (if hires then (.hires, if mixed then 160 else 192) else (.lores, if mixed then 20 else 24))
  textStart := if mixed then some 20 else none

section plan

variable {s : State C} {hires mixed : Bool}

theorem displayPlan_of_text (ht : s.latch .text = true) : displayPlan s = ⟨none, some 0⟩ := by
  rw [displayPlan, if_pos ht]

theorem displayPlan_of_graphics (ht : s.latch .text = false) (hh : s.latch .hires = hires)
    (hm : s.latch .mixed = mixed) : displayPlan s = graphicsPlan hires mixed := by
  rw [displayPlan, if_neg (by simp [ht]), hh, hm]
  cases hires <;> cases mixed <;> rfl

/-- Every length that a graphics plan asks for is one that its decoder admits (R100, R280). -/
theorem graphicsPlan_lengths_admitted {d : DecoderKind} {lines : Nat}
    (h : (graphicsPlan hires mixed).graphics = some (d, lines)) :
    ∀ n ∈ planLengths (graphicsPlan hires mixed), n ∈ d.lengths := by
  cases hires <;> cases mixed <;> cases h <;> decide

/-- Whatever a plan asks for, its decoder admits (R280). -/
theorem displayPlan_lengths_admitted {d : DecoderKind} {lines : Nat} (h : (displayPlan s).graphics = some (d, lines)) :
    ∀ n ∈ planLengths (displayPlan s), n ∈ d.lengths := by
  cases ht : s.latch .text with
  | true =>
    rw [displayPlan_of_text ht] at h
    cases h
  | false =>
    rw [displayPlan_of_graphics ht rfl rfl] at h ⊢
    exact graphicsPlan_lengths_admitted h

end plan

/-- Settles O59: the plan of each case of the three latches. -/
theorem displayPlanAsksForAdmittedLengths : Obligations.DisplayPlanAsksForAdmittedLengths := by
  intro s
  refine ⟨fun ht => ?_, fun ht hh hm => ?_, fun ht hh hm => ?_, fun ht hh hm => ?_, fun ht hh hm => ?_,
    fun d lines => displayPlan_lengths_admitted⟩
  · rw [displayPlan_of_text ht]
    exact ⟨rfl, rfl⟩
  all_goals
    rw [displayPlan_of_graphics ht hh hm]
    exact ⟨rfl, rfl⟩

end Sys2Proof.Machine
end

section
/-!
Text and the flash counter (spec/45_text.md): the style of a byte by its range (O58), the cell buffer of a text snapshot
(O16), one tick (O23) and the ticks of a whole run (O32).
-/
namespace Sys2Proof.Machine

open Sys2Proof.Statements

section style

/-! The ranges of R293: codes up to 63, 64 to 127 in either character set, 128 and up. -/

variable {v : Byte}

theorem textStyle_of_le_63 (h : v.toNat ≤ 63) (alt : Bool) : textStyle v alt = .inverse := if_pos h

theorem textStyle_primary_of_64_to_127 (hlo : 64 ≤ v.toNat) (hhi : v.toNat ≤ 127) : textStyle v false = .flashing := by
  rw [textStyle, if_neg (by omega), if_pos ⟨hhi, rfl⟩]

theorem textStyle_alternate_of_64_to_95 (hlo : 64 ≤ v.toNat) (hhi : v.toNat ≤ 95) : textStyle v true = .normal := by
  rw [textStyle, if_neg (by omega), if_neg (by simp), if_neg (by omega)]

theorem textStyle_alternate_of_96_to_127 (hlo : 96 ≤ v.toNat) (hhi : v.toNat ≤ 127) : textStyle v true = .inverse := by
  rw [textStyle, if_neg (by omega), if_neg (by simp), if_pos ⟨hlo, hhi, rfl⟩]

theorem textStyle_of_128_le (h : 128 ≤ v.toNat) (alt : Bool) : textStyle v alt = .normal := by
  rw [textStyle, if_neg (by omega), if_neg (by omega), if_neg (by omega)]

/-- The ranges of R293 partition the bytes, and on each the bit is the one that the statements write out (R294). -/
theorem inverseBit_textStyle (v : Byte) (alt flash : Bool) :
    inverseBit flash (textStyle v alt) = inverseSpec v alt flash := by
  by_cases h63 : v.toNat ≤ 63
  · simp [textStyle_of_le_63 h63, inverseBit, inverseSpec, h63]
  by_cases h127 : v.toNat ≤ 127
  · have h64 : 64 ≤ v.toNat := by omega
    cases alt with
    | false => simp [textStyle_primary_of_64_to_127 h64 h127, inverseBit, inverseSpec, h63, h64, h127]
    | true =>
      by_cases h95 : v.toNat ≤ 95
      · have h96 : ¬ 96 ≤ v.toNat := by omega
        simp [textStyle_alternate_of_64_to_95 h64 h95, inverseBit, inverseSpec, h63, h96]
      · have h96 : 96 ≤ v.toNat := by omega
        simp [textStyle_alternate_of_96_to_127 h96 h127, inverseBit, inverseSpec, h96, h127]
  · simp [textStyle_of_128_le (show 128 ≤ v.toNat by omega), inverseBit, inverseSpec, h63, h127]

end style

/-- Settles O58: each clause is the style of its range. -/
theorem textStyleDecidesTheInverseBit : Obligations.TextStyleDecidesTheInverseBit := by
  intro v alt flash
  have hspace : textStyle 160 alt = .normal := textStyle_of_128_le (by decide) alt
  have bit {b : Byte} {a : Bool} {style : TextStyle} (h : textStyle b a = style) :
      inverseBit flash (textStyle b a) = inverseBit flash style := congrArg _ h
  exact ⟨bit (textStyle_of_le_63 (by decide) alt), ⟨rfl, hspace, bit hspace⟩, bit (textStyle_of_le_63 (by decide) alt),
    fun hlo hhi => bit (textStyle_primary_of_64_to_127 hlo hhi),
    fun hlo hhi => bit (textStyle_alternate_of_96_to_127 hlo hhi)⟩

section buffer

variable (cfg : Config) (snap : List Byte) (alt flash mixed color : Bool) (shape : Shape)

theorem textBuffer_cells_length : (textBuffer cfg snap alt flash mixed color shape).cells.length = shape.lines := by
  simp [textBuffer]

theorem textBuffer_row_length : ∀ row ∈ (textBuffer cfg snap alt flash mixed color shape).cells,
    row.length = shape.charsPerLine := by
  simp [textBuffer]

/-- The buffer holds each cell of the shape at its row and column (R297). -/
theorem textBuffer_cell {r c : Nat} (hr : r < shape.lines) (hc : c < shape.charsPerLine) :
    ∃ row, (textBuffer cfg snap alt flash mixed color shape).cells[r]? = some row ∧
      row[c]? = some (textCell snap shape.charsPerLine alt flash mixed r c) := by
  simp [textBuffer, hr, hc]

end buffer

/-- The two text rows run the text decoder, whose shape for 24 rows of their columns has those rows and columns
(R261, R291, R297). -/
theorem textRows_decode : ∀ p ∈ [(Instr.decText960, 40), (Instr.decText1920, 80)],
    (∀ snap alt flash mixed color (s : State),
      exec (p.1 snap alt flash mixed color) s = .next (decodeText refConfig snap alt flash mixed color s)) ∧
    (∃ double, classify .text (24 * p.2) = some ⟨24, p.2, none, double⟩) ∧ p.2 ∣ frameWidth ∧ 24 * p.2 ≠ 0 := by
  intro p hp
  rcases List.mem_pair.1 hp with rfl | rfl <;> exact ⟨fun _ _ _ _ _ _ => rfl, ⟨_, rfl⟩, by decide, by decide⟩

/-- Settles O16: the buffer is that of the length's shape, and each cell's inverse bit is the written-out one. -/
theorem textSnapshotGivesItsCells : Obligations.TextSnapshotGivesItsCells := by
  intro p hp snap alt flash mixed color s hlen
  obtain ⟨hexec, ⟨double, hshape⟩, hwidth, hpos⟩ := textRows_decode p hp
  rw [← hlen] at hshape hpos
  refine ⟨textBuffer refConfig snap alt (flashValue flash s) mixed color ⟨24, p.2, none, double⟩, ?_,
    Nat.div_mul_cancel hwidth, rfl, rfl, textBuffer_cells_length .., textBuffer_row_length _ _ _ _ _ _ _,
    fun r hr c hc => ?_⟩
  · rw [hexec, decodeText, decodeRequest_of_classify _ _ _ _ _ hpos hshape]
    rfl
  · rw [← inverseBit_textStyle]
    exact textBuffer_cell _ _ _ _ _ _ _ hr hc

section flash

variable {C : Type} {cfg : Config} {s : State C}

theorem flashTick_of_period (h : s.flashCount + 1 = cfg.flashPeriod) :
    flashTick cfg s = { s with flashCount := 0, flashPhase := !s.flashPhase } := if_pos h

theorem flashTick_of_ne_period (h : s.flashCount + 1 ≠ cfg.flashPeriod) :
    flashTick cfg s = { s with flashCount := s.flashCount + 1 } := if_neg h

/-- A state whose flash counter and phase are those of `n` ticks from 0 (R298). -/
def flashAfter (cfg : Config) (n : Nat) (s : State C) : State C :=
  { s with flashCount := n % cfg.flashPeriod, flashPhase := decide (n / cfg.flashPeriod % 2 = 1) }

theorem flashAfter_zero (hcount : s.flashCount = 0) (hphase : s.flashPhase = false) : flashAfter cfg 0 s = s := by
  cases s
  cases hcount
  cases hphase
  simp [flashAfter]

/-- With the period full, one more tick starts a new one, of the other parity. -/
theorem flashAfter_succ_of_period {n : Nat} (hp : 0 < cfg.flashPeriod)
    (h : n % cfg.flashPeriod + 1 = cfg.flashPeriod) :
    flashAfter cfg (n + 1) s =
      { s with flashCount := 0, flashPhase := !decide (n / cfg.flashPeriod % 2 = 1) } := by
  have hsum : 0 + cfg.flashPeriod * (n / cfg.flashPeriod + 1) = n + 1 := by
    have hn := Nat.mod_add_div n cfg.flashPeriod
    rw [Nat.mul_succ]
    omega
  obtain ⟨hdiv, hmod⟩ := (Nat.div_mod_unique hp).2 ⟨hsum, hp⟩
  have hparity (q : Nat) : decide ((q + 1) % 2 = 1) = !decide (q % 2 = 1) := by
    rw [← decide_not, decide_eq_decide]
    omega
  rw [flashAfter, hdiv, hmod, hparity]

/-- Within a period, one more tick adds to the counter only. -/
theorem flashAfter_succ_of_lt {n : Nat} (h : n % cfg.flashPeriod + 1 < cfg.flashPeriod) :
    flashAfter cfg (n + 1) s =
      { s with flashCount := n % cfg.flashPeriod + 1, flashPhase := decide (n / cfg.flashPeriod % 2 = 1) } := by
  have hsum : n % cfg.flashPeriod + 1 + cfg.flashPeriod * (n / cfg.flashPeriod) = n + 1 := by
    have hn := Nat.mod_add_div n cfg.flashPeriod
    omega
  obtain ⟨hdiv, hmod⟩ := (Nat.div_mod_unique (by omega)).2 ⟨hsum, h⟩
  rw [flashAfter, hdiv, hmod]

/-- A tick takes the state after `n` ticks to that after `n + 1` (R298). -/
theorem flashTick_flashAfter (hp : 0 < cfg.flashPeriod) (n : Nat) (s : State C) :
    flashTick cfg (flashAfter cfg n s) = flashAfter cfg (n + 1) s := by
  have hlt : n % cfg.flashPeriod < cfg.flashPeriod := Nat.mod_lt n hp
  by_cases h : n % cfg.flashPeriod + 1 = cfg.flashPeriod
  · rw [flashTick_of_period h, flashAfter_succ_of_period hp h]
    rfl
  · rw [flashTick_of_ne_period h, flashAfter_succ_of_lt (by omega)]
    rfl

/-- `n` ticks from a counter at 0 with phase 0 (R298). -/
theorem iterate_flashTick (hp : 0 < cfg.flashPeriod) (n : Nat) (hcount : s.flashCount = 0)
    (hphase : s.flashPhase = false) : (flashTick cfg)^[n] s = flashAfter cfg n s := by
  induction n with
  | zero => exact (flashAfter_zero hcount hphase).symm
  | succ n ih => rw [Function.iterate_succ_apply', ih, flashTick_flashAfter hp]

end flash

/-- Settles O23: the period of this hardware is 24. -/
theorem tickOperationAdvancesTheFlashCounter : Obligations.TickOperationAdvancesTheFlashCounter := by
  intro s
  have hexec : exec .tick s = .next (flashTick refConfig s) := rfl
  rw [hexec]
  split
  case isTrue h => rw [flashTick_of_period h]
  case isFalse h => rw [flashTick_of_ne_period h]

/-- Settles O32, by induction on the ticks over any period. -/
theorem flashPhaseInvertsEveryPeriod : Obligations.FlashPhaseInvertsEveryPeriod :=
  fun n _ => iterate_flashTick (by decide) n

end Sys2Proof.Machine
end

section
/-!
The lo-res decoder (spec/46_lores.md): what a buffer from the palette stage shows, and the nibble that every pixel of a
lo-res snapshot shows (O17).
-/
namespace Sys2Proof.Machine

open Sys2Proof.Statements

/-- The palette stage shows the indices that its rows hold, at alpha 255, when the palette has every index
(R63, R275). -/
theorem shows_palettize {cfg : Config} {pal : List Rgb} {rows : List (List Nat)} {index : Nat → Nat → Nat}
    (halpha : cfg.alpha = 255) (hrows : ∀ row ∈ rows, row.length = 560)
    (hshown : ∀ y < rows.length, ∀ x < 560, ∃ row, rows[y]? = some row ∧ row[x]? = some (index y x))
    (hindex : ∀ y x, index y x < pal.length) : Shows (palettize cfg pal rows) rows.length pal index := by
  refine ⟨rfl, palettize_bytes_length hrows, fun y hy x hx => ?_⟩
  obtain ⟨row, hrow, hpixel⟩ := hshown y hy x hx
  have hcolour : pal[index y x]? = some (pal[index y x]'(hindex y x)) := List.getElem?_eq_getElem _
  refine ⟨_, hcolour, ?_⟩
  rw [pixelAt_palettize hrows hrow hpixel hcolour, pixelBytes, halpha]

/-- Both 16-entry palettes have 16 entries (R271, R273). -/
theorem loresPalette_length (color : Bool) : (loresPalette refConfig color).length = 16 := by
  cases color <;> rfl

section index

variable (cfg : Config) (snap : List Byte) (shape : Shape)

theorem loresIndex_length : (loresIndex cfg snap shape).length = 8 * shape.lines := by
  simp [loresIndex]

theorem loresIndex_row_length : ∀ row ∈ loresIndex cfg snap shape, row.length = 560 := by
  simp [loresIndex, frameWidth]

/-- The index buffer holds `loresPixel` at its place (R314). -/
theorem loresIndex_pixel {y x : Nat} (hy : y < 8 * shape.lines) (hx : x < 560) :
    ∃ row, (loresIndex cfg snap shape)[y]? = some row ∧ row[x]? = some (loresPixel cfg snap shape y x) := by
  simp [loresIndex, frameWidth, hy, hx]

end index

section pixel

/-- The nibble of a line of a cell: the low one in the upper block, the high one in the lower (R311). -/
theorem blockNibble_eq (v : Byte) (y : Nat) :
    (if y % 8 < 4 then lowNibble v else highNibble v) = if y % 8 < 4 then v.toNat % 16 else v.toNat / 16 := by
  rw [lowNibble_eq, highNibble_eq]

theorem blockNibble_lt (v : Byte) (y : Nat) : (if y % 8 < 4 then v.toNat % 16 else v.toNat / 16) < 16 := by
  have hv := v.isLt
  split <;> omega

/-- The remap of an even double-resolution column is the rotation by one under the default permutation (R312, R313). -/
theorem loresRemap_eq (charsPerLine c : Nat) {n : Nat} (hn : n < 16) :
    loresRemap refConfig (decide (charsPerLine = 80)) c n =
      if charsPerLine = 80 ∧ c % 2 = 0 then 2 * n % 16 + n / 8 else n := by
  have heven : (decide (charsPerLine = 80) = true ∧ c % 2 = 0) = (charsPerLine = 80 ∧ c % 2 = 0) := by
    rw [decide_eq_true_iff]
  exact ite_congr heven (fun _ => rotateLeftTable_eq hn) fun _ => rfl

/-- A pixel of a shape that is of double resolution exactly at 80 columns is the written-out one (R311, R312, R314). -/
theorem loresPixel_eq_spec (snap : List Byte) {shape : Shape}
    (hdouble : shape.doubleRes = decide (shape.charsPerLine = 80)) (y x : Nat) :
    loresPixel refConfig snap shape y x = loresPixelSpec snap shape.charsPerLine y x := by
  rw [loresPixel, hdouble, blockNibble_eq, loresRemap_eq _ _ (blockNibble_lt _ y)]
  rfl

/-- A rotated nibble is a nibble again, so every pixel is an index of a 16-entry palette (R310). -/
theorem loresPixelSpec_lt (snap : List Byte) (charsPerLine y x : Nat) : loresPixelSpec snap charsPerLine y x < 16 := by
  have hn := blockNibble_lt (byteAt snap (y / 8 * charsPerLine + x / (560 / charsPerLine))) y
  rw [loresPixelSpec]
  split <;> omega

end pixel

/-- The output of the pipeline on a shape whose resolution fits its columns (R310, R311, R314). -/
theorem shows_loresIndex (snap : List Byte) (color : Bool) {shape : Shape}
    (hdouble : shape.doubleRes = decide (shape.charsPerLine = 80)) :
    Shows (palettize refConfig (loresPalette refConfig color) (loresIndex refConfig snap shape)) (8 * shape.lines)
      (loresPalette refConfig color) (loresPixelSpec snap shape.charsPerLine) := by
  have hlen := loresIndex_length refConfig snap shape
  rw [← hlen]
  refine shows_palettize rfl (loresIndex_row_length _ _ _) (fun y hy x hx => ?_) fun y x => ?_
  · rw [← loresPixel_eq_spec snap hdouble]
    exact loresIndex_pixel _ _ _ (hlen ▸ hy) hx
  · rw [loresPalette_length]
    exact loresPixelSpec_lt ..

/-- The four lo-res rows run the lo-res decoder, whose shape for their length has their rows and columns and is of double
resolution exactly at 80 columns (R261, R310). -/
theorem loresRows_decode :
    ∀ p ∈ [(Instr.decLores800, 20, 40), (Instr.decLores960, 24, 40), (Instr.decLores1600, 20, 80),
      (Instr.decLores1920, 24, 80)],
    (∀ snap color (s : State), exec (p.1 snap color) s = .next (decodeLoRes refConfig snap color s)) ∧
    (∃ mixed, classify .lores (p.2.1 * p.2.2) = some ⟨p.2.1, p.2.2, mixed, decide (p.2.2 = 80)⟩) ∧
    p.2.1 * p.2.2 ≠ 0 := by
  intro p hp
  simp only [List.mem_cons, List.not_mem_nil, or_false] at hp
  rcases hp with rfl | rfl | rfl | rfl <;> exact ⟨fun _ _ _ => rfl, ⟨_, rfl⟩, by decide⟩

/-- Settles O17: the request runs the pipeline on the length's shape, which shows the nibble of each block. -/
theorem loResSnapshotGivesItsBlocks : Obligations.LoResSnapshotGivesItsBlocks := by
  intro p hp snap color s hlen
  obtain ⟨hexec, ⟨mixed, hshape⟩, hpos⟩ := loresRows_decode p hp
  rw [← hlen] at hshape hpos
  refine ⟨_, ?_, shows_loresIndex snap color (shape := ⟨p.2.1, p.2.2, mixed, decide (p.2.2 = 80)⟩) rfl⟩
  rw [hexec, decodeLoRes, decodeRequest_of_classify _ _ _ _ _ hpos hshape]
  rfl

end Sys2Proof.Machine
end

section
/-!
The hi-res colour-artifact engine (spec/47_hires.md): the columns that a white pair consumes, the walk as the last run
that covers a pixel (O49), and what that run gives at its start, on a line without data bits, as a palette index and in
a decoded snapshot (O50, O51, O52, O53, O18).
-/
namespace Sys2Proof.Machine

open Sys2Proof.Statements

section columns

variable (line : List Byte)

/-- Column `k` is the second column of a white pair, so the walk skips it (R328, R333). -/
def consumed (k : Nat) : Bool :=
  decide (k < hiresColumns) && hiresBit line k && setBefore line k % 2 == 1

/-- The first column of a pair consumes the next one, and nothing else does (R331). -/
theorem consumed_succ (k : Nat) : consumed line (k + 1) = (emits line k && hiresNextBit line k) := by
  rw [consumed, emits, hiresNextBit, setBefore]
  cases hiresBit line k with
  | false => simp
  | true =>
    rcases Nat.mod_two_eq_zero_or_one (setBefore line k) with h | h <;> simp [Nat.add_mod, h]

variable {line} {k : Nat}

/-- A column emits a run when its bit is set and no pair consumed it (R328). -/
theorem emits_eq_of_lt (hk : k < hiresColumns) : emits line k = (hiresBit line k && !consumed line k) := by
  rw [emits, consumed, decide_eq_true hk]
  rcases Nat.mod_two_eq_zero_or_one (setBefore line k) with h | h <;> simp [h]

/-- The column after an emitting one has an odd number of set columns before it, so it does not emit (R333). -/
theorem emits_succ_of_emits (h : emits line k = true) : emits line (k + 1) = false := by
  simp only [emits, Bool.and_eq_true, beq_iff_eq] at h
  obtain ⟨hbit, heven⟩ := h
  simp [emits, setBefore, hbit, Nat.add_mod, heven]

end columns

section runs

variable (color : Bool) (line : List Byte)

/-- The run that column `k` emits covers pixel `x` (R332). -/
def covers (x k : Nat) : Bool :=
  emits line k && decide (runStart color line k ≤ x) && decide ((x : Int) ≤ runEnd line k)

theorem covers_iff (x k : Nat) : covers color line x k = true ↔
    emits line k = true ∧ runStart color line k ≤ x ∧ (x : Int) ≤ runEnd line k := by
  simp [covers, and_assoc]

/-- Among the columns before `n`, the last one whose run covers pixel `x`. -/
def coveringBefore (n x : Nat) : Option Nat := (List.range n).reverse.find? (covers color line x)

/-- The index of pixel `x` when the columns before `n` are walked. -/
def shownBefore (n x : Nat) : Nat := (coveringBefore color line n x).elim 0 (runIndex color line)

theorem coveringBefore_succ (n x : Nat) : coveringBefore color line (n + 1) x =
    if covers color line x n then some n else coveringBefore color line n x := by
  rw [coveringBefore, List.range_succ, List.reverse_append, List.reverse_singleton, List.singleton_append,
    List.find?_cons]
  cases covers color line x n <;> rfl

theorem shownBefore_succ (n x : Nat) : shownBefore color line (n + 1) x =
    if covers color line x n then runIndex color line n else shownBefore color line n x := by
  rw [shownBefore, coveringBefore_succ, apply_ite (fun o => Option.elim o 0 (runIndex color line))]
  rfl

/-- The pixel read off the runs is the one shown after all 280 columns. -/
theorem hiresPixelSpec_eq_shownBefore (x : Nat) :
    hiresPixelSpec color line x = shownBefore color line hiresColumns x := by
  rw [hiresPixelSpec, shownBefore]
  change _ = Option.elim (coveringColumn color line x) _ _
  cases coveringColumn color line x <;> rfl

/-- A pixel is black or has the index of a run. -/
theorem hiresPixelSpec_eq_zero_or_runIndex (x : Nat) :
    hiresPixelSpec color line x = 0 ∨ ∃ k, hiresPixelSpec color line x = runIndex color line k := by
  rw [hiresPixelSpec]
  cases coveringColumn color line x with
  | none => exact .inl rfl
  | some k => exact .inr ⟨k, rfl⟩

variable {color line}

/-- A column stays the covering one while no later column covers the pixel. -/
theorem coveringBefore_eq_some {n x k : Nat} (hkn : k < n) (hk : covers color line x k = true)
    (hlater : ∀ m, k < m → covers color line x m = false) : coveringBefore color line n x = some k := by
  induction n, hkn using Nat.le_induction with
  | base => rw [coveringBefore_succ, if_pos hk]
  | succ n hn ih => rw [coveringBefore_succ, hlater n hn, if_neg Bool.false_ne_true, ih]

/-- From its first pixel to the one after its normal start, a run is the last to cover: the next emitting column is two
columns further on, and its run starts later even with a lead of one pixel (R331, R332). -/
theorem shownBefore_eq_runIndex {n x k : Nat} (hkn : k < n) (hk : emits line k = true)
    (hlo : runStart color line k ≤ x) (hhi : x ≤ 2 * k + hiresHigh line k + 1) :
    shownBefore color line n x = runIndex color line k := by
  have hcover : covers color line x k = true := (covers_iff ..).2 ⟨hk, hlo, by rw [runEnd]; omega⟩
  have hlater : ∀ m, k < m → covers color line x m = false := by
    intro m hkm
    rw [Bool.eq_false_iff, ne_eq, covers_iff]
    rintro ⟨hm, hstart, -⟩
    have hne : m ≠ k + 1 := fun h => by simp [h, emits_succ_of_emits hk] at hm
    have hhigh := hiresHigh_le line k
    rw [runStart] at hstart
    split at hstart <;> omega
  rw [shownBefore, coveringBefore_eq_some hkn hcover hlater]
  rfl

end runs

section walk

variable (color : Bool) (line : List Byte)

/-- Filling a line given pixel by pixel (R8). -/
theorem fill_map_range (f : Nat → Nat) (n : Nat) (lo hi : Int) (v : Nat) :
    fill ((List.range n).map f) lo hi v =
      (List.range n).map fun x : Nat => if lo ≤ (x : Int) ∧ (x : Int) ≤ hi then v else f x := by
  refine List.ext_getElem? fun x => ?_
  rw [fill_getElem?, List.getElem?_map, List.getElem?_map, Option.map_map]
  by_cases hx : x < n <;> simp [hx]

variable {line} {k : Nat} (out : List Nat)

/-- A white pair fills its run: four pixels, and in colour the one before them (R331, R334). -/
theorem whiteRun_eq_fill (hnext : hiresNextBit line k = true) : whiteRun refConfig color line k out =
    fill out (runStart color line k) (runEnd line k) (runIndex color line k) := by
  cases color <;> simp [whiteRun, runStart, runEnd, runIndex, normalStart, hnext, refConfig]

/-- A lone bit fills its run of four pixels (R330, R334). -/
theorem loneRun_eq_fill (hnext : hiresNextBit line k = false) : loneRun refConfig color line k out =
    fill out (runStart color line k) (runEnd line k) (runIndex color line k) := by
  have hlast : normalStart line k + refConfig.loneRunLen - 1 = runEnd line k := by
    have hlen : refConfig.loneRunLen = 4 := rfl
    rw [normalStart, runEnd, hlen]
    omega
  have hindex : (if color then 4 * hiresHigh line k + 2 - k % 2 else 3) = runIndex color line k := by
    rw [runIndex, hnext]
    rcases Nat.mod_two_eq_zero_or_one k with h | h <;> simp [h]
  rw [loneRun, hlast, hindex]
  simp [normalStart, runStart, hnext]

/-- A column of the walk that meets the flag of its consumed columns: an emitting column fills its run, a pair sets the
flag for the next column (R328 to R335). -/
theorem walkColumn_eq (hk : k < hiresColumns) :
    walkColumn refConfig color line ⟨consumed line k, out⟩ k = ⟨consumed line (k + 1),
      if emits line k then fill out (runStart color line k) (runEnd line k) (runIndex color line k) else out⟩ := by
  rw [consumed_succ, emits_eq_of_lt hk, walkColumn]
  cases consumed line k with
  | true => simp
  | false =>
    cases hiresBit line k with
    | false => simp
    | true =>
      cases hnext : hiresNextBit line k with
      | true => simp [whiteRun_eq_fill color out hnext]
      | false => simp [loneRun_eq_fill color out hnext]

variable (line)

/-- After `n` columns the walk holds the flag of column `n`, and each pixel shows the last run so far that covers it
(R332, R335). -/
theorem walk_eq_shownBefore (n : Nat) (hn : n ≤ hiresColumns) :
    (List.range n).foldl (walkColumn refConfig color line) ⟨false, blankLine⟩ =
      ⟨consumed line n, (List.range 560).map (shownBefore color line n)⟩ := by
  induction n with
  | zero =>
    have hblack : shownBefore color line 0 = fun _ => 0 := rfl
    have hflag : consumed line 0 = false := by simp [consumed, setBefore]
    rw [hflag, hblack, List.map_const', List.length_range]
    rfl
  | succ n ih =>
    have hstep : ∀ x, shownBefore color line (n + 1) x = if emits line n then
        if runStart color line n ≤ x ∧ (x : Int) ≤ runEnd line n then runIndex color line n
        else shownBefore color line n x else shownBefore color line n x := fun x => by
      simp only [shownBefore_succ, covers_iff, ite_and]
    rw [List.range_succ, List.foldl_append, ih (by omega), List.foldl_cons, List.foldl_nil,
      walkColumn_eq color _ (by omega), fill_map_range]
    cases h : emits line n <;> simp [hstep, h]

/-- A decoded line is the 560 pixels read off its runs (R335). -/
theorem hiresLine_eq_map_hiresPixelSpec :
    hiresLine refConfig color line = (List.range 560).map (hiresPixelSpec color line) := by
  rw [hiresLine, walk_eq_shownBefore color line hiresColumns le_rfl,
    funext (hiresPixelSpec_eq_shownBefore color line)]

theorem hiresLine_length : (hiresLine refConfig color line).length = 560 := by
  simp [hiresLine_eq_map_hiresPixelSpec]

theorem hiresLine_getElem? {x : Nat} (hx : x < 560) :
    (hiresLine refConfig color line)[x]? = some (hiresPixelSpec color line x) := by
  simp [hiresLine_eq_map_hiresPixelSpec, hx]

end walk

/-- Settles O49: by induction on the columns, the walk holds the last covering run of each pixel. -/
theorem hiResWalkShowsTheLastCoveringRun : Obligations.HiResWalkShowsTheLastCoveringRun := fun color line =>
  ⟨hiresLine_length color line, fun _ hx => hiresLine_getElem? color line hx⟩

/-- The pixels at the start of a run show it: no later run reaches them (R330, R331, R332). -/
theorem hiresLine_at_start_of_run {line : List Byte} {k x : Nat} (hk : k < 280) (hemits : emits line k = true)
    (hlo : runStart true line k ≤ x) (hhi : x ≤ 2 * k + hiresHigh line k + 1) (hx : x < 560) :
    (hiresLine refConfig true line)[x]? = some (runIndex true line k) := by
  rw [hiresLine_getElem? true line hx, hiresPixelSpec_eq_shownBefore,
    shownBefore_eq_runIndex (n := hiresColumns) hk hemits hlo hhi]

/-- Settles O50: a lone run starts at its normal start. -/
theorem loneBitShowsItsOwnColour : Obligations.LoneBitShowsItsOwnColour := by
  intro line k d hk hd hemits hnext hx
  have hindex : runIndex true line k = 4 * hiresHigh line k + 2 - k % 2 := by
    rw [runIndex, if_pos rfl, hnext, if_neg Bool.false_ne_true]
    split <;> omega
  rw [← hindex]
  refine hiresLine_at_start_of_run hk hemits ?_ (by omega) hx
  rw [runStart, hnext, if_neg (by simp)]
  omega

/-- Settles O51: the run of a pair starts one pixel before its normal start. -/
theorem whitePairTakesThePixelBefore : Obligations.WhitePairTakesThePixelBefore := by
  intro line k x hk hemits hnext hlo hhi hx
  have hindex : runIndex true line k = 4 * hiresHigh line k + 3 := by simp [runIndex, hnext]
  rw [← hindex]
  refine hiresLine_at_start_of_run hk hemits ?_ hhi hx
  rw [runStart, if_pos ⟨rfl, hnext⟩]
  omega

/-- Settles O52: a column without its bit leaves the walk at a blank line. -/
theorem lineWithoutDataBitsIsBlack : Obligations.LineWithoutDataBitsIsBlack := by
  intro cfg color line hbits
  have hwalk : (List.range hiresColumns).foldl (walkColumn cfg color line) ⟨false, blankLine⟩ =
      ⟨false, blankLine⟩ := by
    refine List.foldlRecOn (motive := (· = Walk.mk false blankLine)) _ _ rfl fun w hw k hk => ?_
    rw [hw, walkColumn, hbits k (List.mem_range.1 hk)]
    rfl
  rw [hiresLine, hwalk, blankLine, frameWidth]

section palette

variable (line : List Byte)

/-- A run in colour has colour 1, 2 or 3 in the group of its high bit, so never the black index 4 (R327). -/
theorem runIndex_color_range (k : Nat) : runIndex true line k < 8 ∧ runIndex true line k ≠ 4 := by
  have hhigh := hiresHigh_le line k
  rw [runIndex, if_pos rfl]
  split
  · omega
  · split <;> omega

theorem hiresPixelSpec_color_range (x : Nat) : hiresPixelSpec true line x < 8 ∧ hiresPixelSpec true line x ≠ 4 := by
  rcases hiresPixelSpec_eq_zero_or_runIndex true line x with h | ⟨k, h⟩ <;> rw [h]
  · decide
  · exact runIndex_color_range line k

theorem hiresPixelSpec_mono (x : Nat) : hiresPixelSpec false line x = 0 ∨ hiresPixelSpec false line x = 3 :=
  (hiresPixelSpec_eq_zero_or_runIndex false line x).imp_right fun ⟨_, h⟩ => h

/-- Every pixel is an index of an 8-entry palette (R272, R274). -/
theorem hiresPixelSpec_lt (color : Bool) (x : Nat) : hiresPixelSpec color line x < 8 := by
  cases color with
  | true => exact (hiresPixelSpec_color_range line x).1
  | false => rcases hiresPixelSpec_mono line x with h | h <;> omega

end palette

/-- Settles O53: every index of a line is black or that of a run. -/
theorem hiResIndicesStayInTheirPalette : Obligations.HiResIndicesStayInTheirPalette := by
  intro line
  simp only [hiresLine_eq_map_hiresPixelSpec, List.forall_mem_map]
  exact ⟨fun x _ => hiresPixelSpec_mono line x, fun x _ => hiresPixelSpec_color_range line x⟩

section snapshot

/-- Both hi-res palettes have 8 entries (R272, R274). -/
theorem hiresPalette_length (color : Bool) : (hiresPalette refConfig color).length = 8 := by
  cases color <;> rfl

variable (color : Bool) (snap : List Byte) (lines : Nat)

theorem hiresIndex_length : (hiresIndex refConfig color snap lines).length = lines := by
  simp [hiresIndex]

theorem hiresIndex_row_length : ∀ row ∈ hiresIndex refConfig color snap lines, row.length = 560 := by
  simp [hiresIndex, hiresLine_length]

variable {lines} in
/-- The index buffer holds the pixels read off the runs of each line (R335). -/
theorem hiresIndex_pixel {y x : Nat} (hy : y < lines) (hx : x < 560) :
    ∃ row, (hiresIndex refConfig color snap lines)[y]? = some row ∧
      row[x]? = some (hiresPixelSpec color (lineBytes snap 40 y) x) :=
  ⟨hiresLine refConfig color (lineBytes snap 40 y), by simp [hiresIndex, hy], hiresLine_getElem? _ _ hx⟩

/-- The output of the pipeline at single resolution: each line shows the runs of its 40 bytes (R275, R335). -/
theorem shows_hiresIndex :
    Shows (palettize refConfig (hiresPalette refConfig color) (hiresIndex refConfig color snap lines)) lines
      (hiresPalette refConfig color) (fun y x => hiresPixelSpec color (lineBytes snap 40 y) x) := by
  have hlen := hiresIndex_length color snap lines
  have hshows := shows_palettize (cfg := refConfig) (pal := hiresPalette refConfig color)
    (index := fun y x => hiresPixelSpec color (lineBytes snap 40 y) x) rfl (hiresIndex_row_length color snap lines)
    (fun y hy x hx => hiresIndex_pixel color snap (hlen ▸ hy) hx)
    (fun y x => hiresPalette_length color ▸ hiresPixelSpec_lt _ color x)
  rwa [hlen] at hshows

/-- The two single-resolution hi-res rows run the hi-res decoder, whose shape for their length has their lines
(R261, R325). -/
theorem hiresRows_decode : ∀ p ∈ [(Instr.decHires6400, 160), (Instr.decHires7680, 192)],
    (∀ snap color (s : State), exec (p.1 snap color) s = .next (decodeHiRes refConfig snap color s)) ∧
    (∃ mixed, classify .hires (40 * p.2) = some ⟨p.2, 40, mixed, false⟩) ∧ 40 * p.2 ≠ 0 := by
  intro p hp
  simp only [List.mem_cons, List.not_mem_nil, or_false] at hp
  rcases hp with rfl | rfl <;> exact ⟨fun _ _ _ => rfl, ⟨_, rfl⟩, by decide⟩

end snapshot

/-- Settles O18: the request runs the pipeline on the length's shape, which shows the runs of each line. -/
theorem hiResSnapshotGivesItsRuns : Obligations.HiResSnapshotGivesItsRuns := by
  intro p hp snap color s hlen
  obtain ⟨hexec, ⟨mixed, hshape⟩, hpos⟩ := hiresRows_decode p hp
  rw [← hlen] at hshape hpos
  refine ⟨_, ?_, shows_hiresIndex color snap p.2⟩
  rw [hexec, decodeHiRes, decodeRequest_of_classify _ _ _ _ _ hpos hshape]
  rfl

end Sys2Proof.Machine
end

section
/-!
The double hi-res decoder (spec/48_dhires.md): a window by the residues of its four stream bits (O54), a stretch of
period four (O55), what a line reads of its bytes (O56), the lit pixels of a monochrome line (O57) and a decoded snapshot
(O19).
-/
namespace Sys2Proof.Machine

open Sys2Proof.Statements

section window

variable (line : List Byte) (x : Nat)

/-- The bit of the window of pixel `x` whose position is `i` modulo 4 (R353). -/
def windowBit (i : Fin 4) : Bool := streamBit line (x + (i + 4 - x % 4) % 4)

/-- A window is the sum of its four stream bits, each at its position modulo 4 (R353). -/
theorem dhiresWindow_eq_sum : dhiresWindow line x =
    ((List.range 4).map fun d => (streamBit line (x + d)).toNat * 2 ^ ((x + d) % 4)).sum := by
  simp [dhiresWindow, shiftedStreamBit, Nat.shiftLeft_eq, List.range_succ, Nat.add_assoc]

/-- The four positions of a window have the four residues modulo 4, so the window is the number whose bits they are; in
the order of the residues they stand rotated by the pixel's own (R353, R357). -/
theorem dhiresWindow_eq_ofBits : dhiresWindow line x = Nat.ofBits (windowBit line x) := by
  have hresidue : x % 4 = 0 ∨ x % 4 = 1 ∨ x % 4 = 2 ∨ x % 4 = 3 := by omega
  rw [dhiresWindow_eq_sum]
  rcases hresidue with hx | hx | hx | hx <;>
    simp [List.range_succ, Nat.ofBits, Fin.foldr_succ, windowBit, hx, Nat.add_mod] <;> omega

theorem dhiresWindow_lt : dhiresWindow line x < 16 :=
  dhiresWindow_eq_ofBits line x ▸ Nat.ofBits_lt_two_pow _

theorem dhiresWindow_testBit {i : Nat} (hi : i < 4) :
    (dhiresWindow line x).testBit i = streamBit line (x + (i + 4 - x % 4) % 4) := by
  rw [dhiresWindow_eq_ofBits, Nat.testBit_ofBits_lt _ _ hi, windowBit]

variable {line x}

/-- The next window has lost the bit at `x` and has got the one at `x + 4`, which has the same residue (R353). -/
theorem dhiresWindow_succ (h : streamBit line (x + 4) = streamBit line x) :
    dhiresWindow line (x + 1) = dhiresWindow line x := by
  have hshifted : shiftedStreamBit line (x + 4) = shiftedStreamBit line x := by simp [shiftedStreamBit, h]
  simp only [dhiresWindow, Nat.add_assoc, Nat.reduceAdd, hshifted]
  omega

end window

section line

variable (cfg : Config) (color : Bool) (line : List Byte)

/-- Every pixel is computed on its own (R355, R357). -/
theorem dhiresLine_eq_map : dhiresLine cfg color line = (List.range 560).map (dhiresPixel cfg color line) := rfl

theorem dhiresLine_length : (dhiresLine cfg color line).length = 560 := by simp [dhiresLine_eq_map]

theorem dhiresLine_getElem? {x : Nat} (hx : x < 560) :
    (dhiresLine cfg color line)[x]? = some (dhiresPixel cfg color line x) := by
  simp [dhiresLine_eq_map, hx]

/-- Without colour a pixel is lit by its own bit (R356). -/
theorem dhiresPixel_mono (x : Nat) : dhiresPixel cfg false line x = if streamBit line x then 15 else 0 := rfl

variable {line} in
/-- A line reads its bytes through the stream only (R352). -/
theorem dhiresLine_congr {line' : List Byte} (h : streamBit line = streamBit line') :
    dhiresLine cfg color line = dhiresLine cfg color line' := by
  have hpixel : dhiresPixel cfg color line = dhiresPixel cfg color line' := by
    funext x
    simp only [dhiresPixel, dhiresWindow, shiftedStreamBit, h]
  rw [dhiresLine_eq_map, dhiresLine_eq_map, hpixel]

end line

/-- Settles O54: the window is the number of its four bits by residue. -/
theorem windowBitIsTheStreamBitOfItsPosition : Obligations.WindowBitIsTheStreamBitOfItsPosition := fun cfg line x =>
  ⟨dhiresWindow_eq_sum line x, dhiresWindow_lt line x, fun _ => dhiresWindow_testBit line x,
    dhiresLine_getElem? cfg true line⟩

/-- Settles O55, by induction on the pixels of the stretch. -/
theorem periodFourStreamGivesOneColour : Obligations.PeriodFourStreamGivesOneColour := by
  intro line x n hperiod j hj
  induction j with
  | zero => rfl
  | succ j ih =>
    rw [← Nat.add_assoc, dhiresWindow_succ (hperiod (x + j) (by omega) (by omega)), ih (by omega)]

/-- Settles O56: the stream has bits 0 to 6 of the 80 bytes. -/
theorem doubleHiResIgnoresHighBits : Obligations.DoubleHiResIgnoresHighBits := by
  intro cfg color line line' hagree
  refine dhiresLine_congr cfg color (funext fun t => ?_)
  by_cases ht : t < dhiresBits
  · have hbyte : t / 7 < 80 := Nat.div_lt_of_lt_mul ht
    rw [streamBit, streamBit, hagree _ _ hbyte (Nat.mod_lt t (by decide))]
  · simp [streamBit, ht]

section lit

variable (line : List Byte)

/-- Bit `b` of byte `m` stands at position `7 * m + b` of the stream (R352). -/
theorem streamBit_of_byte {m b : Nat} (hm : m < 80) (hb : b < 7) :
    streamBit line (7 * m + b) = (byteAt line m).getLsbD b := by
  have ht : 7 * m + b < dhiresBits := by unfold dhiresBits; omega
  have hdiv : (7 * m + b) / 7 = m := by omega
  have hmod : (7 * m + b) % 7 = b := by omega
  rw [streamBit, decide_eq_true ht, Bool.true_and, hdiv, hmod]

/-- The number of set data bits of a byte (R352). -/
def dataBits (v : Byte) : Nat := (List.range 7).countP fun b => v.getLsbD b

/-- The stream of the first `n` bytes has as many set bits as those bytes have data bits (R352). -/
theorem countP_streamBit {n : Nat} (hn : n ≤ 80) :
    (List.range (7 * n)).countP (streamBit line) = ((List.range n).map fun m => dataBits (byteAt line m)).sum := by
  induction n with
  | zero => rfl
  | succ n ih =>
    have hbyte : ((List.range 7).map (7 * n + ·)).countP (streamBit line) = dataBits (byteAt line n) := by
      rw [List.countP_map]
      exact List.countP_congr fun b hb => by
        rw [Function.comp_apply, streamBit_of_byte line hn (List.mem_range.1 hb)]
    rw [Nat.mul_succ, List.range_add, List.countP_append, hbyte, ih (by omega), List.sum_range_succ]

/-- The lit pixels of a monochrome line are the set bits of its stream (R356). -/
theorem countP_lit (cfg : Config) :
    (dhiresLine cfg false line).countP (· == 15) = (List.range 560).countP (streamBit line) := by
  rw [dhiresLine_eq_map, List.countP_map]
  refine List.countP_congr fun x _ => ?_
  rw [Function.comp_apply, dhiresPixel_mono]
  cases streamBit line x <;> decide

variable {line} in
/-- A line of `n` bytes is the list of them. -/
theorem map_byteAt_range {n : Nat} (h : line.length = n) : (List.range n).map (byteAt line) = line := by
  subst h
  exact List.ext_getElem (by simp) fun m _ hm => by simp [byteAt, hm]

end lit

/-- Settles O57: the lit pixels are the bits of the stream, which are the data bits byte by byte. -/
theorem monochromeDoubleHiResLightsEachSetBit : Obligations.MonochromeDoubleHiResLightsEachSetBit := by
  intro cfg line hlen
  constructor
  · calc (dhiresLine cfg false line).countP (· == 15)
      _ = (List.range (7 * 80)).countP (streamBit line) := countP_lit line cfg
      _ = (((List.range 80).map (byteAt line)).map dataBits).sum := by
        rw [countP_streamBit line le_rfl, List.map_map]; rfl
      _ = (line.map dataBits).sum := by rw [map_byteAt_range hlen]
  · rw [dhiresLine_eq_map, List.forall_mem_map]
    intro x _
    rw [dhiresPixel_mono]
    cases streamBit line x <;> decide

section snapshot

/-- A pixel under the default permutation is the written-out one (R353, R354, R356). -/
theorem dhiresPixel_eq_spec (color : Bool) (line : List Byte) (x : Nat) :
    dhiresPixel refConfig color line x = dhiresPixelSpec color line x := by
  cases color with
  | true => exact rotateLeftTable_eq (dhiresWindow_lt line x)
  | false => rfl

/-- A rotated window is below 16 again, so every pixel is an index of a 16-entry palette (R350). -/
theorem dhiresPixelSpec_lt (color : Bool) (line : List Byte) (x : Nat) : dhiresPixelSpec color line x < 16 := by
  have hwindow := dhiresWindow_lt line x
  rw [dhiresPixelSpec]
  split
  · omega
  · split <;> decide

variable (color : Bool) (snap : List Byte) (lines : Nat)

theorem dhiresIndex_length : (dhiresIndex refConfig color snap lines).length = lines := by
  simp [dhiresIndex]

theorem dhiresIndex_row_length : ∀ row ∈ dhiresIndex refConfig color snap lines, row.length = 560 := by
  simp [dhiresIndex, dhiresLine_length]

variable {lines} in
/-- The index buffer holds the written-out pixels of each line (R357). -/
theorem dhiresIndex_pixel {y x : Nat} (hy : y < lines) (hx : x < 560) :
    ∃ row, (dhiresIndex refConfig color snap lines)[y]? = some row ∧
      row[x]? = some (dhiresPixelSpec color (lineBytes snap 80 y) x) :=
  ⟨dhiresLine refConfig color (lineBytes snap 80 y), by simp [dhiresIndex, hy],
    dhiresPixel_eq_spec color _ x ▸ dhiresLine_getElem? _ _ _ hx⟩

/-- The output of the pipeline: each line shows the windows, or the bits, of its 80 bytes (R350, R357). -/
theorem shows_dhiresIndex :
    Shows (palettize refConfig (loresPalette refConfig color) (dhiresIndex refConfig color snap lines)) lines
      (loresPalette refConfig color) (fun y x => dhiresPixelSpec color (lineBytes snap 80 y) x) := by
  have hlen := dhiresIndex_length color snap lines
  have hshows := shows_palettize (cfg := refConfig) (pal := loresPalette refConfig color)
    (index := fun y x => dhiresPixelSpec color (lineBytes snap 80 y) x) rfl (dhiresIndex_row_length color snap lines)
    (fun y hy x hx => dhiresIndex_pixel color snap (hlen ▸ hy) hx)
    (fun y x => loresPalette_length color ▸ dhiresPixelSpec_lt color _ x)
  rwa [hlen] at hshows

/-- The two double hi-res rows run the hi-res decoder, whose shape for their length has their lines of 80 bytes and sends
them to the double hi-res path (R261, R325, R350). -/
theorem dhiresRows_decode : ∀ p ∈ [(Instr.decHires12800, 160), (Instr.decHires15360, 192)],
    (∀ snap color (s : State), exec (p.1 snap color) s = .next (decodeHiRes refConfig snap color s)) ∧
    (∃ mixed, classify .hires (80 * p.2) = some ⟨p.2, 80, mixed, true⟩) ∧ 80 * p.2 ≠ 0 := by
  intro p hp
  rcases List.mem_pair.1 hp with rfl | rfl <;> exact ⟨fun _ _ _ => rfl, ⟨_, rfl⟩, by decide⟩

end snapshot

/-- Settles O19: the request takes the double hi-res path, which shows the window or the bit of each pixel. -/
theorem doubleHiResSnapshotGivesItsWindows : Obligations.DoubleHiResSnapshotGivesItsWindows := by
  intro p hp snap color s hlen
  obtain ⟨hexec, ⟨mixed, hshape⟩, hpos⟩ := dhiresRows_decode p hp
  rw [← hlen] at hshape hpos
  refine ⟨_, ?_, shows_dhiresIndex color snap p.2⟩
  rw [hexec, decodeHiRes, decodeRequest_of_classify _ _ _ _ _ hpos hshape]
  rfl

end Sys2Proof.Machine
end

section
/-!
What RESET writes and leaves (O22), that it forgets the state before it (O33), and that construction of the block of
this hardware is a reset of the blank state (O26).
-/
namespace Sys2Proof.Machine

variable {C : Type}

/-- A list keyed by `key` whose values depend on the key alone reads that value at each of its keys. -/
theorem keyedGet_map_of_mem {α β ι : Type} [DecidableEq α] (d : β) (key : ι → α) (value : α → β) {l : List ι} {i : ι}
    (hi : i ∈ l) : keyedGet d (l.map fun j => (key j, value (key j))) (key i) = value (key i) := by
  induction l with
  | nil => cases hi
  | cons j l ih =>
    rw [List.map_cons, keyedGet]
    split
    · next h => rw [h]
    · next h =>
      have hne : i ≠ j := fun hij => h (hij ▸ rfl)
      exact ih ((List.mem_cons.1 hi).resolve_left hne)

variable {cfg : Config}

/-- After a reset the latch of an entry is 1 exactly for `TEXT`, whatever the table (R402). -/
theorem hardReset_latch {e : SwitchEntry} (he : e ∈ cfg.table) (s : State C) :
    (hardReset cfg s).latch e.name = decide (e.name = .text) :=
  keyedGet_map_of_mem false SwitchEntry.name (· == .text) he

/-- The derived latches are 0 after a reset (R402). -/
theorem resetBanked_getElem (j : Fin 8) : resetBanked[j] = false := by
  simp [resetBanked]

/-- A reset writes core-owned status bytes only (R402). -/
theorem hardReset_statusKeptBut (hw : wellFormedConfig cfg) (s : State C) :
    StatusKeptBut (· ∈ coreOwnedAddresses cfg.table) s (hardReset cfg s) := by
  intro k hk
  have hother : ∀ e ∈ cfg.table, e.handler = none → e.statusAddress.map BitVec.toNat ≠ some k := by
    intro e he hh hmap
    obtain ⟨a, ha, rfl⟩ := Option.map_eq_some_iff.1 hmap
    exact hk (statusAddress_coreOwned hw he hh ha).1
  rw [hardReset_status, resetStatus, foldl_refreshCell_read? cfg _ k cfg.sentClear _ _
    fun e he hh ha => absurd ha (hother e he hh)]
  exact if_neg fun ⟨e, he, hh, ha⟩ => hother e he hh ha

/-- A reset touches nothing on the bus side (log 22). -/
theorem hardReset_busSideKept (s : State C) : BusSideKept s (hardReset cfg s) :=
  ⟨⟨rfl, rfl, rfl⟩, rfl, rfl⟩

/-- Resets of any two states capture the same saved state: every part of it is written from the configuration. -/
theorem saveState_hardReset_eq (s s' : State C) : saveState (hardReset cfg s) = saveState (hardReset cfg s') := rfl

/-- Settles O22: the latches are those of the table, and the status bytes by the refresh of every entry. -/
theorem resetOperationSetsTheResetValues : Obligations.ResetOperationSetsTheResetValues :=
  fun s => ⟨hardReset refConfig s, rfl, fun _ he => hardReset_latch he s, resetBanked_getElem, rfl, rfl,
    hardReset_statusAgrees refConfig_wellFormed s, hardReset_statusKeptBut refConfig_wellFormed s, rfl, rfl,
    hardReset_busSideKept s⟩

/-- Settles O33: both states after the reset are sound and have the same latches, which determine the status region. -/
theorem resetForgetsTheStateBefore : Obligations.ResetForgetsTheStateBefore := by
  intro s s' hs hs'
  have hsound : (hardReset refConfig s).Sound refConfig := hs.runLine .reset
  have hsound' : (hardReset refConfig s').Sound refConfig := hs'.runLine .reset
  exact ⟨saveState_hardReset_eq s s', hsound.status_eq_of_latches_eq hsound' rfl⟩

/-- Settles O26: the configuration is accepted, and the state after reset is a reset of the blank one. -/
theorem constructionGivesTheResetState : Obligations.ConstructionGivesTheResetState :=
  construct_of_accepted refConfig_wellFormed

end Sys2Proof.Machine
end

section
/-!
Construction refuses a table with an entry that no address reaches (O43): R410 is the first rule checked, and the entry
recorded is the first that violates it.
-/
namespace Sys2Proof.Machine

/-- An entry violates R410 when it has neither an off address nor a status address. -/
theorem hasAddress_eq_false_iff (e : SwitchEntry) :
    hasAddress e = false ↔ e.offAddress = none ∧ e.statusAddress = none := by
  simp [hasAddress]

/-- Where an entry fails a check, the first one that fails it is recorded (R376). -/
theorem firstEntry_of_failing {table : List SwitchEntry} {check : SwitchEntry → Bool} {e : SwitchEntry}
    (he : e ∈ table) (hc : check e = false) (defect : SwitchName → ConstructionDefect) :
    ∃ e' ∈ table, check e' = false ∧ firstEntry table check defect = some (defect e'.name) := by
  cases hf : table.find? fun e => !check e with
  | none => simpa [hc] using List.find?_eq_none.1 hf e he
  | some e' =>
    exact ⟨e', List.mem_of_find?_eq_some hf, by simpa using List.find?_some hf, by rw [firstEntry, hf]; rfl⟩

/-- A defect of R410 is the first one reported (R376). -/
theorem firstDefect_of_noAddress {cfg : Config} {d : ConstructionDefect}
    (h : firstEntry cfg.table hasAddress .noAddress = some d) : firstDefect cfg = some d := by
  rw [firstDefect, h]; rfl

/-- A configuration with a defect gives no block (R375). -/
theorem construct_of_defect {C : Type} {cfg : Config} {d : ConstructionDefect} (h : firstDefect cfg = some d) :
    construct (C := C) cfg = .refused (.constructionDefect d) := by
  rw [construct, h]

/-- Settles O43: some entry fails R410, and the first such entry is the one recorded. -/
theorem unreachableEntryIsRefusedAtConstruction : Obligations.UnreachableEntryIsRefusedAtConstruction := by
  rintro C cfg ⟨e, he, hno⟩
  obtain ⟨e', he', hc, hfirst⟩ := firstEntry_of_failing he ((hasAddress_eq_false_iff e).2 hno) .noAddress
  obtain ⟨hoff, hstatus⟩ := (hasAddress_eq_false_iff e').1 hc
  exact ⟨e', he', hoff, hstatus, construct_of_defect (firstDefect_of_noAddress hfirst)⟩

end Sys2Proof.Machine
end
